-- ==== Sys2Proof/Word.lean ====
section
/-! DEFINITION. The word types of the machine (spec/00_scope.md R9), the byte store, and the fixed
names of the opcode table: mnemonics, addressing modes and the registers an instruction names. -/

namespace Sys2Proof

/-- An unsigned 8-bit value, `u8` (R9). -/
abbrev Byte := BitVec 8

/-- An unsigned 16-bit value, `u16` (R9): an address, the program counter, a 16-bit operand. -/
abbrev Addr := BitVec 16

/-- An array of bytes (RAM, OAM, NT, PAL, CHRRAM, the APU bank, PRG, CHR) as the list of its cells
that differ from what an unlisted cell reads as, in rising order of index. -/
abbrev Memory := List Host.Cell

/-- The registers rule R10 lets `R` stand for. -/
inductive Reg where
  | a | x | y
  deriving DecidableEq, Repr

/-- The addressing modes: the resolver's eleven, and the two operand forms outside it, Implied and
Indirect (spec/30_encoding.md R123). -/
inductive AddrMode where
  | implied | accumulator | immediate
  | zeroPage | zeroPageX | zeroPageY
  | absolute | absoluteX | absoluteY
  | indirectX | indirectY | relative | indirect
  deriving DecidableEq, Repr

/-- The 56 mnemonics of the opcode table; `nopStar` is the table's `NOP*` (R139, R144). -/
inductive Mnemonic where
  | lda | ldx | ldy | sta | stx | sty
  | tax | tay | txa | tya | tsx | txs
  | adc | sbc | and | ora | eor | cmp | cpx | cpy | bit
  | inc | dec | inx | iny | dex | dey
  | asl | lsr | rol | ror
  | bpl | bmi | bvc | bvs | bcc | bcs | bne | beq
  | jmp | jsr | rts | rti
  | pha | php | pla | plp
  | clc | sec | cli | sei | clv | cld | sed
  | nop | nopStar
  deriving DecidableEq, Repr

end Sys2Proof
end

