-- ==== Sys2Proof/Machine/Bits.lean ====
section
/-! DEFINITION. Bit fields, extension and byte order (spec/00_scope.md R9, spec/20_memory.md R51, R104). -/

namespace Sys2Proof

/-- `lo(w) = w[7:0]`. -/
def lo (w : Addr) : Byte := w.setWidth 8

/-- `hi(w) = w[15:8]`. -/
def hi (w : Addr) : Byte := (w >>> 8).setWidth 8

/-- `{h, l}`, the value h*256 + l; in memory the low byte comes first (R51). -/
def word (h l : Byte) : Addr := (h.setWidth 16 <<< 8) ||| l.setWidth 16

/-- `zext_16(v)`. -/
def zext (v : Byte) : Addr := v.setWidth 16

/-- `sext_16(v)`: bit 7 copied into bits 15..8 (R104). -/
def sext (v : Byte) : Addr := v.signExtend 16

/-- `v[i]` for a byte. -/
def bit (v : Byte) (i : Nat) : Bool := v.getLsbD i

/-- A single bit as the byte $00 or $01. -/
def ofBit (b : Bool) : Byte := if b then 1 else 0

end Sys2Proof
end

