-- ==== Sys2Proof/Config.lean ====
section
/-! DEFINITION. What is fixed for a session: the parameters of spec/00_scope.md section 4 and the
cartridge (R8), both plain data that State carries unchanged; and the free values, constants with
no body: `draw()`, the host's buttons, and the steps of the two external units. -/

namespace Sys2Proof

/-- `ZP_POINTER_WRAP` (spec/30_encoding.md R133, D12). -/
inductive ZpPointerWrap where
  /-- The default: a pointer at $FF reads $00FF and $0100. -/
  | none
  /-- A pointer at $FF reads $00FF and $0000. -/
  | wrap
  deriving DecidableEq, Repr

/-- `RELOAD_BIAS` (spec/60_exceptions.md R271, R272, D9): 0, the default, or -1. -/
inductive ReloadBias where
  | zero | minusOne
  deriving DecidableEq, Repr

/-- `NROM16_LOW` (spec/20_memory.md R91, D27): what $8000-$BFFF reads with a 16 KiB image. -/
inductive Nrom16Low where
  /-- The default: a draw. -/
  | unmapped
  | mirror
  deriving DecidableEq, Repr

/-- `NROM32_UPPER` (spec/20_memory.md R91, D27): what $C000-$FFFF reads with an image of 32 KiB or more. -/
inductive Nrom32Upper where
  /-- The default. -/
  | secondHalf
  | firstHalf
  deriving DecidableEq, Repr

/-- The 27 undocumented no-operation opcodes (spec/30_encoding.md R140). -/
def undocumentedNops : List Byte :=
  [0x1A, 0x3A, 0x5A, 0x7A, 0xDA, 0xFA,
   0x80, 0x82, 0x89, 0xC2, 0xE2,
   0x04, 0x44, 0x64,
   0x14, 0x34, 0x54, 0x74, 0xD4, 0xF4,
   0x0C,
   0x1C, 0x3C, 0x5C, 0x7C, 0xDC, 0xFC]

/-- The parameters the source leaves open and the spec names (spec/00_scope.md section 4). -/
structure Params where
  /-- `ILLEGAL_NOPS`: the undocumented NOP opcodes that are in the dispatch table (R140, D2). -/
  illegalNops : List Byte
  zpPointerWrap : ZpPointerWrap
  reloadBias : ReloadBias
  /-- `STATUS_READ_RESETS_TOGGLE` (R66, D19). -/
  statusReadResetsToggle : Bool
  /-- `SCROLL_SHARES_TOGGLE` (R71, D18). -/
  scrollSharesToggle : Bool
  nrom16Low : Nrom16Low
  nrom32Upper : Nrom32Upper
  deriving DecidableEq, Repr

/-- Every parameter at the spec's default (spec/00_scope.md section 4). -/
def Params.default : Params where
  illegalNops := undocumentedNops
  zpPointerWrap := .none
  reloadBias := .zero
  statusReadResetsToggle := false
  scrollSharesToggle := true
  nrom16Low := .unmapped
  nrom32Upper := .secondHalf

/-- Nametable mirroring (R8, R78). A cartridge selects one of the first three; the two
single-screen variants exist in R78's table and no cartridge selects them (D41). -/
inductive Mirroring where
  | horizontal | vertical | fourScreen
  | singleLower | singleUpper
  deriving DecidableEq, Repr

/-- The cartridge (R8): a configuration fixed for the session. A byte that `prg` or `chr` does not
list is $00, so every image has exactly one canonical list. -/
structure Cartridge where
  prg : Memory
  /-- PRG size in units of 16 KiB (R110); R8 asks for at least one. -/
  prgBanks : Nat
  chr : Memory
  /-- CHR size in units of 8 KiB (R110); 0 means CHR-RAM (R80). -/
  chrBanks : Nat
  mapper : Nat
  mirroring : Mirroring
  /-- Battery-backed RAM presence: a header flag with no effect (R110). -/
  battery : Bool
  /-- Trainer presence: a header flag no rule reads (R8, R110). -/
  trainer : Bool
  deriving DecidableEq, Repr

/-- DESIGN CHOICE, log entry 1: the cartridge of `State.reset`, NROM with one PRG bank of zeros, no
CHR and horizontal mirroring. -/
def Cartridge.blank : Cartridge where
  prg := []
  prgBanks := 1
  chr := []
  chrBanks := 0
  mapper := 0
  mirroring := .horizontal
  battery := false
  trainer := false

/-- The video view of the bus: what the video unit may read (spec/20_memory.md R105,
spec/60_exceptions.md R275). -/
structure VideoView where
  ctrl : Byte
  mask : Byte
  status : Byte
  oamAddr : Byte
  vramAddr : Addr
  addrToggle : Bool
  readBuffer : Byte
  scroll0 : Byte
  scroll1 : Byte
  scrollToggle : Bool
  oam : Memory
  nt : Memory
  pal : Memory
  chrRam : Memory
  chr : Memory
  chrBanks : Nat
  mirroring : Mirroring
  deriving DecidableEq, Repr

/-- The audio view of the bus: what the audio unit may read (spec/20_memory.md R106). -/
structure AudioView where
  bank : Memory
  reloadLinear : Bool
  reloadNoise : Bool
  deriving DecidableEq, Repr

/-- What one audio step may do: clear either reload flag, and change its private state (R276). -/
structure AudioResult where
  clearLinear : Bool
  clearNoise : Bool
  next : Nat
  deriving DecidableEq, Repr, Inhabited

/-- `draw()` (R11): the n-th free byte of the run. A free value, log entry 5. -/
opaque Config.draw : Nat → Byte

/-- `Buttons()` (R87, D40): the host's button byte at the n-th sample. A free value, log entry 6. -/
opaque Config.buttons : Nat → Byte

/-- `VideoStep` (R275, D31): from the video unit's private state and its view, the PPUSTATUS it
writes and its next private state. Uninterpreted, log entry 7. -/
opaque Config.videoStep : Nat → VideoView → Byte × Nat

/-- `AudioStep` (R276, D31): from the audio unit's private state and its view, the flags it clears
and its next private state. Uninterpreted, log entry 8. -/
opaque Config.audioStep : Nat → AudioView → AudioResult

end Sys2Proof
end

