-- ==== Sys2Proof/Machine/State.lean ====
section
/-! DEFINITION. The state of the machine as plain data (spec/10_state.md), why it stops, and the
state right after reset. -/

namespace Sys2Proof.Machine

/-- The six stored status flags (R24, R25); bits 4 and 5 of the status byte have no storage. -/
structure Flags where
  c : Bool
  z : Bool
  i : Bool
  d : Bool
  v : Bool
  n : Bool
  deriving DecidableEq, Repr

/-- PpuSharedState with the VRAM arrays the bus owns (R34, R37). -/
structure Ppu where
  /-- PPUCTRL -/
  ctrl : Byte
  /-- PPUMASK -/
  mask : Byte
  /-- PPUSTATUS, bit 7 vblank (R36) -/
  status : Byte
  /-- OAMADDR -/
  oamAddr : Byte
  /-- OAM, 256 bytes -/
  oam : Memory
  vramAddr : Addr
  /-- `false` means the high byte is next -/
  addrToggle : Bool
  readBuffer : Byte
  /-- SCROLL[0] -/
  scroll0 : Byte
  /-- SCROLL[1] -/
  scroll1 : Byte
  /-- $2005's own toggle, used only when `SCROLL_SHARES_TOGGLE = false` -/
  scrollToggle : Bool
  /-- nametable RAM: 2048 bytes, 4096 with four-screen mirroring (R37) -/
  nt : Memory
  /-- palette RAM, 32 bytes (R37) -/
  pal : Memory
  /-- CHR-RAM, 8192 bytes, used only when the cartridge has no CHR bytes (R37) -/
  chrRam : Memory
  deriving DecidableEq, Repr

/-- ApuRegisterBank (R38); `bank` is indexed by the CPU address, $4000 to $4017. -/
structure Apu where
  bank : Memory
  reloadLinear : Bool
  reloadNoise : Bool
  deriving DecidableEq, Repr

/-- ControllerLatch (R39). -/
structure Controller where
  /-- `ctl_state` -/
  latch : Byte
  /-- `ctl_strobe` -/
  strobe : Bool
  /-- `ctl_readBit`, 0 to 8 -/
  readBit : Fin 9
  deriving DecidableEq, Repr

/-- The MMC1 registers (R40, R41). -/
structure Mmc1 where
  shift : BitVec 5
  control : BitVec 5
  chr0 : BitVec 5
  chr1 : BitVec 5
  prg : BitVec 5
  deriving DecidableEq, Repr

/-- MapperState (R40). -/
inductive Mapper where
  | nrom
  | mmc1 (r : Mmc1)
  | unsupported (n : Nat)
  deriving DecidableEq, Repr

/-- What a fault reports (spec/60_exceptions.md R250's table); the value `halted` records (R43). -/
inductive HaltReason where
  /-- R251, code 1 -/
  | unimplementedOpcode (opcode : Byte) (instrCount : Nat)
  /-- R252, code 2 -/
  | illegalAddressingOperation (opcode : Byte) (mode : AddrMode)
  /-- R253, code 3 -/
  | writeOnlyRegisterRead (a : Addr)
  /-- R254, code 4 -/
  | unmappedIoRead (a : Addr)
  deriving DecidableEq, Repr

/-- The fault code of R250's table. -/
def HaltReason.code : HaltReason → Nat
  | .unimplementedOpcode _ _ => 1
  | .illegalAddressingOperation _ _ => 2
  | .writeOnlyRegisterRead _ => 3
  | .unmappedIoRead _ => 4

/-- The whole machine. -/
structure State where
  /-- A (R20, R21) -/
  a : Byte
  /-- X (R20, R21) -/
  x : Byte
  /-- Y (R20, R21) -/
  y : Byte
  /-- SP (R22) -/
  sp : Byte
  /-- PC (R23) -/
  pc : Addr
  /-- the status register P (R24, R25) -/
  p : Flags
  /-- `cycles_remaining` (R29) -/
  cyclesRemaining : Nat
  /-- `nmi_prev` (R30) -/
  nmiPrev : Bool
  /-- `instr_count` (R31) -/
  instrCount : Nat
  /-- `extra_cycles` (R32) -/
  extraCycles : Nat
  /-- internal RAM, 2048 bytes (R33) -/
  ram : Memory
  /-- PPU registers, OAM, VRAM (R34, R37) -/
  ppu : Ppu
  /-- audio register bank and reload flags (R38) -/
  apu : Apu
  /-- controller latch (R39) -/
  ctl : Controller
  /-- mapper registers (R40) -/
  mapper : Mapper
  /-- `tick` (R42) -/
  tick : Nat
  /-- `halted` (R43) -/
  halted : Option HaltReason
  /-- the cartridge (R8, R44): configuration, never changed by a step (log entry 1) -/
  cart : Cartridge
  /-- the parameters (R44): configuration, never changed by a step (log entry 4) -/
  params : Params
  /-- the model's own: how many `draw()` values have been taken (log entry 5) -/
  draws : Nat
  /-- the model's own: how many button samples have been taken (log entry 6) -/
  buttonDraws : Nat
  /-- the model's own: the video unit's private state (log entry 7) -/
  video : Nat
  /-- the model's own: the audio unit's private state (log entry 8) -/
  audio : Nat
  deriving DecidableEq, Repr

/-- The machine stopped with a fault. Each constructor carries what the spec says the fault reports
and `final`, the state it leaves: `halted` set, and every effect made before the fault (R250, R256).
All four are safe: the spec says the machine stops there. -/
inductive Fault where
  /-- Raised by the fetch when the opcode has no dispatch entry (R251). Safe. -/
  | unimplementedOpcode (opcode : Byte) (instrCount : Nat) (final : State)
  /-- Raised by a write through Immediate or Relative mode (R252); no instruction does it. Safe. -/
  | illegalAddressingOperation (opcode : Byte) (mode : AddrMode) (final : State)
  /-- Raised by a bus read of a write-only PPU register (R253). Safe. -/
  | writeOnlyRegisterRead (a : Addr) (final : State)
  /-- Raised by a bus read of $4010-$4014 or $4017-$401F (R254). Safe. -/
  | unmappedIoRead (a : Addr) (final : State)
  deriving DecidableEq, Repr

/-- What the fault reports. -/
def Fault.reason : Fault → HaltReason
  | .unimplementedOpcode opcode n _ => .unimplementedOpcode opcode n
  | .illegalAddressingOperation opcode m _ => .illegalAddressingOperation opcode m
  | .writeOnlyRegisterRead a _ => .writeOnlyRegisterRead a
  | .unmappedIoRead a _ => .unmappedIoRead a

/-- The state the fault leaves (R256). -/
def Fault.final : Fault → State
  | .unimplementedOpcode _ _ s => s
  | .illegalAddressingOperation _ _ s => s
  | .writeOnlyRegisterRead _ s => s
  | .unmappedIoRead _ s => s

/-- Why the model gives an instruction no meaning. -/
inductive Refusal where
  /-- Answered by `exec` for an instruction that has no meaning yet. Safe. No arm answers it. -/
  | notModelled (mnemonic : String)
  deriving DecidableEq, Repr

/-- The outcome of an instruction, a CPU step or a tick. -/
abbrev Outcome := Host.Outcome State Fault Refusal

/-- The outcome of a bus access or of a part of an instruction: a value and the state after it, or
the fault it raised. -/
inductive Access (α : Type) where
  | done (value : α) (after : State)
  | raised (f : Fault)
  deriving DecidableEq, Repr

/-- Where a VRAM address leads (spec/20_memory.md R77). -/
inductive VramPlace where
  | chr (p : Nat)
  | nt (i : Nat)
  | pal (i : Nat)
  deriving DecidableEq, Repr

/-- An operand form of the resolver's eleven modes, with its operand (spec/30_encoding.md R123). -/
inductive Operand where
  | accumulator
  | immediate (op8 : Byte)
  | zeroPage (op8 : Byte)
  | zeroPageX (op8 : Byte)
  | zeroPageY (op8 : Byte)
  | absolute (op16 : Addr)
  | absoluteX (op16 : Addr)
  | absoluteY (op16 : Addr)
  | indirectX (op8 : Byte)
  | indirectY (op8 : Byte)
  | relative (op8 : Byte)
  deriving DecidableEq, Repr

/-- What a resolved operand is: the register A, an immediate value, a memory byte, a displacement. -/
inductive Place where
  | accumulator
  | immediate (v : Byte)
  | memory (ea : Addr)
  | relative (d : Byte)
  deriving DecidableEq, Repr

/-- The machine right after reset (spec/70_reset_and_hazards.md R290, R291) with the cartridge of log
entry 1 loaded and the default parameters. Every value the spec leaves unspecified (A, X, Y, SP, P,
and the contents of RAM, OAM, NT, PAL and CHRRAM) is the zero that log entries 2 and 3 name; PC is the word the
blank cartridge holds at $FFFC. -/
def State.reset : State where
  a := 0
  x := 0
  y := 0
  sp := 0
  pc := 0
  p := ⟨false, false, false, false, false, false⟩
  cyclesRemaining := 0
  nmiPrev := false
  instrCount := 0
  extraCycles := 0
  ram := []
  ppu :=
    { ctrl := 0, mask := 0, status := 0, oamAddr := 0, oam := []
      vramAddr := 0, addrToggle := false, readBuffer := 0
      scroll0 := 0, scroll1 := 0, scrollToggle := false
      nt := [], pal := [], chrRam := [] }
  apu := { bank := [], reloadLinear := false, reloadNoise := false }
  ctl := { latch := 0, strobe := false, readBit := 0 }
  mapper := .nrom
  tick := 0
  halted := none
  cart := Cartridge.blank
  params := Params.default
  draws := 0
  buttonDraws := 0
  video := 0
  audio := 0

end Sys2Proof.Machine
end

