-- ==== Sys2Proof/Machine/Flags.lean ====
section
/-! DEFINITION. Every flag computation: the status byte (spec/10_state.md R25), `setZN`
(spec/00_scope.md R13), the bit-serial adder (spec/41_arith_logic.md R171), compare (R178), bit test
(R182), and the shifts and rotates (spec/42_shift_rotate.md R201-R204). -/

namespace Sys2Proof.Machine

/-- `setZN(v)` (R13). -/
def Flags.setZN (p : Flags) (v : Byte) : Flags :=
  { p with z := v == 0, n := bit v 7 }

/-- `P_byte(b)` (R25): bit 5 is 1 and bit 4 is `b`. -/
def Flags.toByte (p : Flags) (b : Bool) : Byte :=
  (ofBit p.n <<< 7) ||| (ofBit p.v <<< 6) ||| (ofBit true <<< 5) ||| (ofBit b <<< 4) |||
    (ofBit p.d <<< 3) ||| (ofBit p.i <<< 2) ||| (ofBit p.z <<< 1) ||| ofBit p.c

/-- `SetP(p)` (R25): bits 4 and 5 are ignored. -/
def Flags.ofByte (v : Byte) : Flags where
  c := bit v 0
  z := bit v 1
  i := bit v 2
  d := bit v 3
  v := bit v 6
  n := bit v 7

/-- What the bit-serial adder carries from one bit to the next (R171). -/
structure Adder where
  /-- the result bits so far -/
  r : Byte
  /-- the carry into the bit last added -/
  c7 : Bool
  /-- the carry out of the bit last added -/
  c : Bool
  deriving DecidableEq, Repr

/-- One iteration of the loop of `BitSerialAdd` at bit `i` (R171). -/
def Adder.step (a b : Byte) (t : Adder) (i : Nat) : Adder :=
  let x := bit a i
  let y := bit b i
  { r := t.r ||| (ofBit (x ^^ y ^^ t.c) <<< i)
    c7 := t.c
    c := (x && y) || (x && t.c) || (y && t.c) }

/-- `BitSerialAdd(a, b, cin)` (R171): the result, the carry out of bit 7, and the overflow, the
carry into bit 7 XOR the carry out of bit 7. -/
def bitSerialAdd (a b : Byte) (cin : Bool) : Byte × Bool × Bool :=
  let t := [0, 1, 2, 3, 4, 5, 6, 7].foldl (Adder.step a b) ⟨0, false, cin⟩
  (t.r, t.c, t.c7 ^^ t.c)

/-- The sum of ADC and its flags (R173). -/
def addWithCarry (a m : Byte) (p : Flags) : Byte × Flags :=
  let t := bitSerialAdd a m p.c
  (t.1, { p with c := t.2.1, v := t.2.2 }.setZN t.1)

/-- The difference of SBC and its flags: addition of the complement (R174). -/
def subtractWithBorrow (a m : Byte) (p : Flags) : Byte × Flags :=
  addWithCarry a (~~~m) p

/-- `Compare(r, m)` (R178): the subtraction with carry-in 1; V is not written. -/
def compareFlags (r m : Byte) (p : Flags) : Flags :=
  let t := bitSerialAdd r (~~~m) true
  { p with c := t.2.1 }.setZN t.1

/-- The flags of BIT (R182). -/
def bitTest (a m : Byte) (p : Flags) : Flags :=
  { p with z := (a &&& m) == 0, n := bit m 7, v := bit m 6 }

/-- ASL: zero fills bit 0, C receives bit 7 (R201). -/
def shiftLeft (v : Byte) (p : Flags) : Byte × Flags :=
  let r := v <<< 1
  (r, { p with c := bit v 7 }.setZN r)

/-- LSR: zero fills bit 7, C receives bit 0 (R202). -/
def shiftRight (v : Byte) (p : Flags) : Byte × Flags :=
  let r := v >>> 1
  (r, { p with c := bit v 0 }.setZN r)

/-- ROL: the old C fills bit 0, C receives bit 7 (R203). -/
def rotateLeft (v : Byte) (p : Flags) : Byte × Flags :=
  let r := (v <<< 1) ||| ofBit p.c
  (r, { p with c := bit v 7 }.setZN r)

/-- ROR: the old C fills bit 7, C receives bit 0 (R204). -/
def rotateRight (v : Byte) (p : Flags) : Byte × Flags :=
  let r := (v >>> 1) ||| (ofBit p.c <<< 7)
  (r, { p with c := bit v 0 }.setZN r)

/-- INC (R183). -/
def increment (v : Byte) (p : Flags) : Byte × Flags :=
  let r := v + 1
  (r, p.setZN r)

/-- DEC (R184). -/
def decrement (v : Byte) (p : Flags) : Byte × Flags :=
  let r := v - 1
  (r, p.setZN r)

end Sys2Proof.Machine
end

