-- ==== Sys2Proof/Syntax.lean ====
section
/-! DEFINITION. The instructions: one constructor for each of the 177 rows of spec/opcode_table.json
(spec/30_encoding.md R139, R140), with the operand its format carries (R120): `op8` for a two-byte
row, `op16` for a three-byte row. The name is the mnemonic and the addressing mode; an undocumented
no-operation (`NOP*`) is named by its opcode. -/

namespace Sys2Proof

inductive Instr where
  -- LDA (R151)
  | ldaImm (op8 : Byte)
  | ldaZp (op8 : Byte)
  | ldaZpX (op8 : Byte)
  | ldaAbs (op16 : Addr)
  | ldaAbsX (op16 : Addr)
  | ldaAbsY (op16 : Addr)
  | ldaIndX (op8 : Byte)
  | ldaIndY (op8 : Byte)
  -- LDX (R152)
  | ldxImm (op8 : Byte)
  | ldxZp (op8 : Byte)
  | ldxZpY (op8 : Byte)
  | ldxAbs (op16 : Addr)
  | ldxAbsY (op16 : Addr)
  -- LDY (R153)
  | ldyImm (op8 : Byte)
  | ldyZp (op8 : Byte)
  | ldyZpX (op8 : Byte)
  | ldyAbs (op16 : Addr)
  | ldyAbsX (op16 : Addr)
  -- STA (R154)
  | staZp (op8 : Byte)
  | staZpX (op8 : Byte)
  | staAbs (op16 : Addr)
  | staAbsX (op16 : Addr)
  | staAbsY (op16 : Addr)
  | staIndX (op8 : Byte)
  | staIndY (op8 : Byte)
  -- STX (R155)
  | stxZp (op8 : Byte)
  | stxZpY (op8 : Byte)
  | stxAbs (op16 : Addr)
  -- STY (R156)
  | styZp (op8 : Byte)
  | styZpX (op8 : Byte)
  | styAbs (op16 : Addr)
  -- TAX (R157)
  | tax
  -- TAY (R158)
  | tay
  -- TXA (R159)
  | txa
  -- TYA (R160)
  | tya
  -- TSX (R161)
  | tsx
  -- TXS (R162)
  | txs
  -- ADC (R173)
  | adcImm (op8 : Byte)
  | adcZp (op8 : Byte)
  | adcZpX (op8 : Byte)
  | adcAbs (op16 : Addr)
  | adcAbsX (op16 : Addr)
  | adcAbsY (op16 : Addr)
  | adcIndX (op8 : Byte)
  | adcIndY (op8 : Byte)
  -- SBC (R174)
  | sbcImm (op8 : Byte)
  | sbcZp (op8 : Byte)
  | sbcZpX (op8 : Byte)
  | sbcAbs (op16 : Addr)
  | sbcAbsX (op16 : Addr)
  | sbcAbsY (op16 : Addr)
  | sbcIndX (op8 : Byte)
  | sbcIndY (op8 : Byte)
  -- AND (R175)
  | andImm (op8 : Byte)
  | andZp (op8 : Byte)
  | andZpX (op8 : Byte)
  | andAbs (op16 : Addr)
  | andAbsX (op16 : Addr)
  | andAbsY (op16 : Addr)
  | andIndX (op8 : Byte)
  | andIndY (op8 : Byte)
  -- ORA (R176)
  | oraImm (op8 : Byte)
  | oraZp (op8 : Byte)
  | oraZpX (op8 : Byte)
  | oraAbs (op16 : Addr)
  | oraAbsX (op16 : Addr)
  | oraAbsY (op16 : Addr)
  | oraIndX (op8 : Byte)
  | oraIndY (op8 : Byte)
  -- EOR (R177)
  | eorImm (op8 : Byte)
  | eorZp (op8 : Byte)
  | eorZpX (op8 : Byte)
  | eorAbs (op16 : Addr)
  | eorAbsX (op16 : Addr)
  | eorAbsY (op16 : Addr)
  | eorIndX (op8 : Byte)
  | eorIndY (op8 : Byte)
  -- CMP (R179)
  | cmpImm (op8 : Byte)
  | cmpZp (op8 : Byte)
  | cmpZpX (op8 : Byte)
  | cmpAbs (op16 : Addr)
  | cmpAbsX (op16 : Addr)
  | cmpAbsY (op16 : Addr)
  | cmpIndX (op8 : Byte)
  | cmpIndY (op8 : Byte)
  -- CPX (R180)
  | cpxImm (op8 : Byte)
  | cpxZp (op8 : Byte)
  | cpxAbs (op16 : Addr)
  -- CPY (R181)
  | cpyImm (op8 : Byte)
  | cpyZp (op8 : Byte)
  | cpyAbs (op16 : Addr)
  -- BIT (R182)
  | bitZp (op8 : Byte)
  | bitAbs (op16 : Addr)
  -- INC (R183)
  | incZp (op8 : Byte)
  | incZpX (op8 : Byte)
  | incAbs (op16 : Addr)
  | incAbsX (op16 : Addr)
  -- DEC (R184)
  | decZp (op8 : Byte)
  | decZpX (op8 : Byte)
  | decAbs (op16 : Addr)
  | decAbsX (op16 : Addr)
  -- INX (R185)
  | inx
  -- INY (R186)
  | iny
  -- DEX (R187)
  | dex
  -- DEY (R188)
  | dey
  -- ASL (R201)
  | aslA
  | aslZp (op8 : Byte)
  | aslZpX (op8 : Byte)
  | aslAbs (op16 : Addr)
  | aslAbsX (op16 : Addr)
  -- LSR (R202)
  | lsrA
  | lsrZp (op8 : Byte)
  | lsrZpX (op8 : Byte)
  | lsrAbs (op16 : Addr)
  | lsrAbsX (op16 : Addr)
  -- ROL (R203)
  | rolA
  | rolZp (op8 : Byte)
  | rolZpX (op8 : Byte)
  | rolAbs (op16 : Addr)
  | rolAbsX (op16 : Addr)
  -- ROR (R204)
  | rorA
  | rorZp (op8 : Byte)
  | rorZpX (op8 : Byte)
  | rorAbs (op16 : Addr)
  | rorAbsX (op16 : Addr)
  -- BPL (R211)
  | bpl (op8 : Byte)
  -- BMI (R212)
  | bmi (op8 : Byte)
  -- BVC (R213)
  | bvc (op8 : Byte)
  -- BVS (R214)
  | bvs (op8 : Byte)
  -- BCC (R215)
  | bcc (op8 : Byte)
  -- BCS (R216)
  | bcs (op8 : Byte)
  -- BNE (R217)
  | bne (op8 : Byte)
  -- BEQ (R218)
  | beq (op8 : Byte)
  -- JMP (R219)
  | jmpAbs (op16 : Addr)
  | jmpInd (op16 : Addr)
  -- JSR (R221)
  | jsr (op16 : Addr)
  -- RTS (R222)
  | rts
  -- RTI (R223)
  | rti
  -- PHA (R231)
  | pha
  -- PHP (R232)
  | php
  -- PLA (R233)
  | pla
  -- PLP (R234)
  | plp
  -- CLC (R235)
  | clc
  -- SEC (R236)
  | sec
  -- CLI (R237)
  | cli
  -- SEI (R238)
  | sei
  -- CLV (R239)
  | clv
  -- CLD (R240)
  | cld
  -- SED (R241)
  | sed
  -- NOP (R242)
  | nop
  -- NOP* (R243)
  | nopU1A
  | nopU3A
  | nopU5A
  | nopU7A
  | nopUDA
  | nopUFA
  | nopU80 (op8 : Byte)
  | nopU82 (op8 : Byte)
  | nopU89 (op8 : Byte)
  | nopUC2 (op8 : Byte)
  | nopUE2 (op8 : Byte)
  | nopU04 (op8 : Byte)
  | nopU44 (op8 : Byte)
  | nopU64 (op8 : Byte)
  | nopU14 (op8 : Byte)
  | nopU34 (op8 : Byte)
  | nopU54 (op8 : Byte)
  | nopU74 (op8 : Byte)
  | nopUD4 (op8 : Byte)
  | nopUF4 (op8 : Byte)
  | nopU0C (op16 : Addr)
  | nopU1C (op16 : Addr)
  | nopU3C (op16 : Addr)
  | nopU5C (op16 : Addr)
  | nopU7C (op16 : Addr)
  | nopUDC (op16 : Addr)
  | nopUFC (op16 : Addr)
  deriving DecidableEq, Repr

end Sys2Proof
end

