-- ==== Sys2Proof/Decode.lean ====
section
/-! DEFINITION. The decoder, total on any bytes and rejecting by name, and after it the opcode table
row of every instruction and the encoder (spec/30_encoding.md R120-R142, spec/opcode_table.json). -/

namespace Sys2Proof

/-- Why bytes are no instruction. -/
inductive Reject where
  /-- There is no opcode byte. -/
  | noOpcode
  /-- The opcode has no dispatch entry (R141). -/
  | unimplementedOpcode (opcode : Byte)
  /-- An operand byte that the opcode's format asks for is missing. -/
  | missingOperand (opcode : Byte)
  deriving DecidableEq, Repr

/-- A dispatch entry: the format of R120 with the instruction it makes of the operand. The `skip`
forms are the NOP* rows, whose operand bytes the machine steps over without reading them (R243). -/
inductive Entry where
  | f1 (i : Instr)
  | f2 (make : Byte → Instr)
  | f3 (make : Addr → Instr)
  | skip2 (make : Byte → Instr)
  | skip3 (make : Addr → Instr)

/-! The opcode map of R139, one definition per row of the map; the argument is the opcode's low nibble. -/

/-- Opcodes $00-$0F. -/
def mapRow0 : Nat → Option Entry
  | 0x1 => some (.f2 .oraIndX)
  | 0x4 => some (.skip2 .nopU04)
  | 0x5 => some (.f2 .oraZp)
  | 0x6 => some (.f2 .aslZp)
  | 0x8 => some (.f1 .php)
  | 0x9 => some (.f2 .oraImm)
  | 0xA => some (.f1 .aslA)
  | 0xC => some (.skip3 .nopU0C)
  | 0xD => some (.f3 .oraAbs)
  | 0xE => some (.f3 .aslAbs)
  | _ => none

/-- Opcodes $10-$1F. -/
def mapRow1 : Nat → Option Entry
  | 0x0 => some (.f2 .bpl)
  | 0x1 => some (.f2 .oraIndY)
  | 0x4 => some (.skip2 .nopU14)
  | 0x5 => some (.f2 .oraZpX)
  | 0x6 => some (.f2 .aslZpX)
  | 0x8 => some (.f1 .clc)
  | 0x9 => some (.f3 .oraAbsY)
  | 0xA => some (.f1 .nopU1A)
  | 0xC => some (.skip3 .nopU1C)
  | 0xD => some (.f3 .oraAbsX)
  | 0xE => some (.f3 .aslAbsX)
  | _ => none

/-- Opcodes $20-$2F. -/
def mapRow2 : Nat → Option Entry
  | 0x0 => some (.f3 .jsr)
  | 0x1 => some (.f2 .andIndX)
  | 0x4 => some (.f2 .bitZp)
  | 0x5 => some (.f2 .andZp)
  | 0x6 => some (.f2 .rolZp)
  | 0x8 => some (.f1 .plp)
  | 0x9 => some (.f2 .andImm)
  | 0xA => some (.f1 .rolA)
  | 0xC => some (.f3 .bitAbs)
  | 0xD => some (.f3 .andAbs)
  | 0xE => some (.f3 .rolAbs)
  | _ => none

/-- Opcodes $30-$3F. -/
def mapRow3 : Nat → Option Entry
  | 0x0 => some (.f2 .bmi)
  | 0x1 => some (.f2 .andIndY)
  | 0x4 => some (.skip2 .nopU34)
  | 0x5 => some (.f2 .andZpX)
  | 0x6 => some (.f2 .rolZpX)
  | 0x8 => some (.f1 .sec)
  | 0x9 => some (.f3 .andAbsY)
  | 0xA => some (.f1 .nopU3A)
  | 0xC => some (.skip3 .nopU3C)
  | 0xD => some (.f3 .andAbsX)
  | 0xE => some (.f3 .rolAbsX)
  | _ => none

/-- Opcodes $40-$4F. -/
def mapRow4 : Nat → Option Entry
  | 0x0 => some (.f1 .rti)
  | 0x1 => some (.f2 .eorIndX)
  | 0x4 => some (.skip2 .nopU44)
  | 0x5 => some (.f2 .eorZp)
  | 0x6 => some (.f2 .lsrZp)
  | 0x8 => some (.f1 .pha)
  | 0x9 => some (.f2 .eorImm)
  | 0xA => some (.f1 .lsrA)
  | 0xC => some (.f3 .jmpAbs)
  | 0xD => some (.f3 .eorAbs)
  | 0xE => some (.f3 .lsrAbs)
  | _ => none

/-- Opcodes $50-$5F. -/
def mapRow5 : Nat → Option Entry
  | 0x0 => some (.f2 .bvc)
  | 0x1 => some (.f2 .eorIndY)
  | 0x4 => some (.skip2 .nopU54)
  | 0x5 => some (.f2 .eorZpX)
  | 0x6 => some (.f2 .lsrZpX)
  | 0x8 => some (.f1 .cli)
  | 0x9 => some (.f3 .eorAbsY)
  | 0xA => some (.f1 .nopU5A)
  | 0xC => some (.skip3 .nopU5C)
  | 0xD => some (.f3 .eorAbsX)
  | 0xE => some (.f3 .lsrAbsX)
  | _ => none

/-- Opcodes $60-$6F. -/
def mapRow6 : Nat → Option Entry
  | 0x0 => some (.f1 .rts)
  | 0x1 => some (.f2 .adcIndX)
  | 0x4 => some (.skip2 .nopU64)
  | 0x5 => some (.f2 .adcZp)
  | 0x6 => some (.f2 .rorZp)
  | 0x8 => some (.f1 .pla)
  | 0x9 => some (.f2 .adcImm)
  | 0xA => some (.f1 .rorA)
  | 0xC => some (.f3 .jmpInd)
  | 0xD => some (.f3 .adcAbs)
  | 0xE => some (.f3 .rorAbs)
  | _ => none

/-- Opcodes $70-$7F. -/
def mapRow7 : Nat → Option Entry
  | 0x0 => some (.f2 .bvs)
  | 0x1 => some (.f2 .adcIndY)
  | 0x4 => some (.skip2 .nopU74)
  | 0x5 => some (.f2 .adcZpX)
  | 0x6 => some (.f2 .rorZpX)
  | 0x8 => some (.f1 .sei)
  | 0x9 => some (.f3 .adcAbsY)
  | 0xA => some (.f1 .nopU7A)
  | 0xC => some (.skip3 .nopU7C)
  | 0xD => some (.f3 .adcAbsX)
  | 0xE => some (.f3 .rorAbsX)
  | _ => none

/-- Opcodes $80-$8F. -/
def mapRow8 : Nat → Option Entry
  | 0x0 => some (.skip2 .nopU80)
  | 0x1 => some (.f2 .staIndX)
  | 0x2 => some (.skip2 .nopU82)
  | 0x4 => some (.f2 .styZp)
  | 0x5 => some (.f2 .staZp)
  | 0x6 => some (.f2 .stxZp)
  | 0x8 => some (.f1 .dey)
  | 0x9 => some (.skip2 .nopU89)
  | 0xA => some (.f1 .txa)
  | 0xC => some (.f3 .styAbs)
  | 0xD => some (.f3 .staAbs)
  | 0xE => some (.f3 .stxAbs)
  | _ => none

/-- Opcodes $90-$9F. -/
def mapRow9 : Nat → Option Entry
  | 0x0 => some (.f2 .bcc)
  | 0x1 => some (.f2 .staIndY)
  | 0x4 => some (.f2 .styZpX)
  | 0x5 => some (.f2 .staZpX)
  | 0x6 => some (.f2 .stxZpY)
  | 0x8 => some (.f1 .tya)
  | 0x9 => some (.f3 .staAbsY)
  | 0xA => some (.f1 .txs)
  | 0xD => some (.f3 .staAbsX)
  | _ => none

/-- Opcodes $A0-$AF. -/
def mapRowA : Nat → Option Entry
  | 0x0 => some (.f2 .ldyImm)
  | 0x1 => some (.f2 .ldaIndX)
  | 0x2 => some (.f2 .ldxImm)
  | 0x4 => some (.f2 .ldyZp)
  | 0x5 => some (.f2 .ldaZp)
  | 0x6 => some (.f2 .ldxZp)
  | 0x8 => some (.f1 .tay)
  | 0x9 => some (.f2 .ldaImm)
  | 0xA => some (.f1 .tax)
  | 0xC => some (.f3 .ldyAbs)
  | 0xD => some (.f3 .ldaAbs)
  | 0xE => some (.f3 .ldxAbs)
  | _ => none

/-- Opcodes $B0-$BF. -/
def mapRowB : Nat → Option Entry
  | 0x0 => some (.f2 .bcs)
  | 0x1 => some (.f2 .ldaIndY)
  | 0x4 => some (.f2 .ldyZpX)
  | 0x5 => some (.f2 .ldaZpX)
  | 0x6 => some (.f2 .ldxZpY)
  | 0x8 => some (.f1 .clv)
  | 0x9 => some (.f3 .ldaAbsY)
  | 0xA => some (.f1 .tsx)
  | 0xC => some (.f3 .ldyAbsX)
  | 0xD => some (.f3 .ldaAbsX)
  | 0xE => some (.f3 .ldxAbsY)
  | _ => none

/-- Opcodes $C0-$CF. -/
def mapRowC : Nat → Option Entry
  | 0x0 => some (.f2 .cpyImm)
  | 0x1 => some (.f2 .cmpIndX)
  | 0x2 => some (.skip2 .nopUC2)
  | 0x4 => some (.f2 .cpyZp)
  | 0x5 => some (.f2 .cmpZp)
  | 0x6 => some (.f2 .decZp)
  | 0x8 => some (.f1 .iny)
  | 0x9 => some (.f2 .cmpImm)
  | 0xA => some (.f1 .dex)
  | 0xC => some (.f3 .cpyAbs)
  | 0xD => some (.f3 .cmpAbs)
  | 0xE => some (.f3 .decAbs)
  | _ => none

/-- Opcodes $D0-$DF. -/
def mapRowD : Nat → Option Entry
  | 0x0 => some (.f2 .bne)
  | 0x1 => some (.f2 .cmpIndY)
  | 0x4 => some (.skip2 .nopUD4)
  | 0x5 => some (.f2 .cmpZpX)
  | 0x6 => some (.f2 .decZpX)
  | 0x8 => some (.f1 .cld)
  | 0x9 => some (.f3 .cmpAbsY)
  | 0xA => some (.f1 .nopUDA)
  | 0xC => some (.skip3 .nopUDC)
  | 0xD => some (.f3 .cmpAbsX)
  | 0xE => some (.f3 .decAbsX)
  | _ => none

/-- Opcodes $E0-$EF. -/
def mapRowE : Nat → Option Entry
  | 0x0 => some (.f2 .cpxImm)
  | 0x1 => some (.f2 .sbcIndX)
  | 0x2 => some (.skip2 .nopUE2)
  | 0x4 => some (.f2 .cpxZp)
  | 0x5 => some (.f2 .sbcZp)
  | 0x6 => some (.f2 .incZp)
  | 0x8 => some (.f1 .inx)
  | 0x9 => some (.f2 .sbcImm)
  | 0xA => some (.f1 .nop)
  | 0xC => some (.f3 .cpxAbs)
  | 0xD => some (.f3 .sbcAbs)
  | 0xE => some (.f3 .incAbs)
  | _ => none

/-- Opcodes $F0-$FF. -/
def mapRowF : Nat → Option Entry
  | 0x0 => some (.f2 .beq)
  | 0x1 => some (.f2 .sbcIndY)
  | 0x4 => some (.skip2 .nopUF4)
  | 0x5 => some (.f2 .sbcZpX)
  | 0x6 => some (.f2 .incZpX)
  | 0x8 => some (.f1 .sed)
  | 0x9 => some (.f3 .sbcAbsY)
  | 0xA => some (.f1 .nopUFA)
  | 0xC => some (.skip3 .nopUFC)
  | 0xD => some (.f3 .sbcAbsX)
  | 0xE => some (.f3 .incAbsX)
  | _ => none

/-- The dispatch table (R139): the entry of an opcode, or none (R141). -/
def dispatch (opcode : Byte) : Option Entry :=
  let low := opcode.toNat % 16
  match opcode.toNat / 16 with
  | 0x0 => mapRow0 low
  | 0x1 => mapRow1 low
  | 0x2 => mapRow2 low
  | 0x3 => mapRow3 low
  | 0x4 => mapRow4 low
  | 0x5 => mapRow5 low
  | 0x6 => mapRow6 low
  | 0x7 => mapRow7 low
  | 0x8 => mapRow8 low
  | 0x9 => mapRow9 low
  | 0xA => mapRowA low
  | 0xB => mapRowB low
  | 0xC => mapRowC low
  | 0xD => mapRowD low
  | 0xE => mapRowE low
  | 0xF => mapRowF low
  | _ => none

/-- The instruction an entry makes of the bytes after the opcode, with the bytes left over. A
two-byte operand is assembled low byte first (R124). -/
def Entry.assemble (opcode : Byte) : Entry → List Byte → Except Reject (Instr × List Byte)
  | .f1 i, rest => .ok (i, rest)
  | .f2 make, b :: rest => .ok (make b, rest)
  | .skip2 make, b :: rest => .ok (make b, rest)
  | .f3 make, l :: h :: rest => .ok (make (word h l), rest)
  | .skip3 make, l :: h :: rest => .ok (make (word h l), rest)
  | _, _ => .error (.missingOperand opcode)

/-- The decoder: the instruction at the head of a list of bytes and the bytes after it. -/
def decode : List Byte → Except Reject (Instr × List Byte)
  | [] => .error .noOpcode
  | opcode :: rest =>
    match dispatch opcode with
    | none => .error (.unimplementedOpcode opcode)
    | some e => e.assemble opcode rest

/-- The bytes of a table word: bit 0 of `w` is the least significant bit of the first byte, and
every bit at or above `nbits` is 0. -/
def tableBytes (nbits w : Nat) : List Byte :=
  let v := w % 2 ^ nbits
  [BitVec.ofNat 8 v, BitVec.ofNat 8 (v / 256), BitVec.ofNat 8 (v / 65536)]

/-- The instruction the decoder reads from a table word. -/
def decodeTableWord (nbits w : Nat) : Option Instr :=
  match decode (tableBytes nbits w) with
  | .ok (i, _) => some i
  | .error _ => none

/-- A row of spec/opcode_table.json for one instruction: opcode, mnemonic, addressing mode, operand
bytes in address order, base cycle count (R142). -/
structure Info where
  opcode : Byte
  mnemonic : Mnemonic
  mode : AddrMode
  operand : List Byte
  cycles : Nat
  deriving DecidableEq, Repr

/-- The opcode table, read from an instruction to its row. -/
def Instr.info : Instr → Info
  | .ldaImm op8 => ⟨0xA9, .lda, .immediate, [op8], 2⟩
  | .ldaZp op8 => ⟨0xA5, .lda, .zeroPage, [op8], 3⟩
  | .ldaZpX op8 => ⟨0xB5, .lda, .zeroPageX, [op8], 4⟩
  | .ldaAbs op16 => ⟨0xAD, .lda, .absolute, [lo op16, hi op16], 4⟩
  | .ldaAbsX op16 => ⟨0xBD, .lda, .absoluteX, [lo op16, hi op16], 4⟩
  | .ldaAbsY op16 => ⟨0xB9, .lda, .absoluteY, [lo op16, hi op16], 4⟩
  | .ldaIndX op8 => ⟨0xA1, .lda, .indirectX, [op8], 6⟩
  | .ldaIndY op8 => ⟨0xB1, .lda, .indirectY, [op8], 5⟩
  | .ldxImm op8 => ⟨0xA2, .ldx, .immediate, [op8], 2⟩
  | .ldxZp op8 => ⟨0xA6, .ldx, .zeroPage, [op8], 3⟩
  | .ldxZpY op8 => ⟨0xB6, .ldx, .zeroPageY, [op8], 4⟩
  | .ldxAbs op16 => ⟨0xAE, .ldx, .absolute, [lo op16, hi op16], 4⟩
  | .ldxAbsY op16 => ⟨0xBE, .ldx, .absoluteY, [lo op16, hi op16], 4⟩
  | .ldyImm op8 => ⟨0xA0, .ldy, .immediate, [op8], 2⟩
  | .ldyZp op8 => ⟨0xA4, .ldy, .zeroPage, [op8], 3⟩
  | .ldyZpX op8 => ⟨0xB4, .ldy, .zeroPageX, [op8], 4⟩
  | .ldyAbs op16 => ⟨0xAC, .ldy, .absolute, [lo op16, hi op16], 4⟩
  | .ldyAbsX op16 => ⟨0xBC, .ldy, .absoluteX, [lo op16, hi op16], 4⟩
  | .staZp op8 => ⟨0x85, .sta, .zeroPage, [op8], 3⟩
  | .staZpX op8 => ⟨0x95, .sta, .zeroPageX, [op8], 4⟩
  | .staAbs op16 => ⟨0x8D, .sta, .absolute, [lo op16, hi op16], 4⟩
  | .staAbsX op16 => ⟨0x9D, .sta, .absoluteX, [lo op16, hi op16], 5⟩
  | .staAbsY op16 => ⟨0x99, .sta, .absoluteY, [lo op16, hi op16], 5⟩
  | .staIndX op8 => ⟨0x81, .sta, .indirectX, [op8], 6⟩
  | .staIndY op8 => ⟨0x91, .sta, .indirectY, [op8], 6⟩
  | .stxZp op8 => ⟨0x86, .stx, .zeroPage, [op8], 3⟩
  | .stxZpY op8 => ⟨0x96, .stx, .zeroPageY, [op8], 4⟩
  | .stxAbs op16 => ⟨0x8E, .stx, .absolute, [lo op16, hi op16], 4⟩
  | .styZp op8 => ⟨0x84, .sty, .zeroPage, [op8], 3⟩
  | .styZpX op8 => ⟨0x94, .sty, .zeroPageX, [op8], 4⟩
  | .styAbs op16 => ⟨0x8C, .sty, .absolute, [lo op16, hi op16], 4⟩
  | .tax => ⟨0xAA, .tax, .implied, [], 2⟩
  | .tay => ⟨0xA8, .tay, .implied, [], 2⟩
  | .txa => ⟨0x8A, .txa, .implied, [], 2⟩
  | .tya => ⟨0x98, .tya, .implied, [], 2⟩
  | .tsx => ⟨0xBA, .tsx, .implied, [], 2⟩
  | .txs => ⟨0x9A, .txs, .implied, [], 2⟩
  | .adcImm op8 => ⟨0x69, .adc, .immediate, [op8], 2⟩
  | .adcZp op8 => ⟨0x65, .adc, .zeroPage, [op8], 3⟩
  | .adcZpX op8 => ⟨0x75, .adc, .zeroPageX, [op8], 4⟩
  | .adcAbs op16 => ⟨0x6D, .adc, .absolute, [lo op16, hi op16], 4⟩
  | .adcAbsX op16 => ⟨0x7D, .adc, .absoluteX, [lo op16, hi op16], 4⟩
  | .adcAbsY op16 => ⟨0x79, .adc, .absoluteY, [lo op16, hi op16], 4⟩
  | .adcIndX op8 => ⟨0x61, .adc, .indirectX, [op8], 6⟩
  | .adcIndY op8 => ⟨0x71, .adc, .indirectY, [op8], 5⟩
  | .sbcImm op8 => ⟨0xE9, .sbc, .immediate, [op8], 2⟩
  | .sbcZp op8 => ⟨0xE5, .sbc, .zeroPage, [op8], 3⟩
  | .sbcZpX op8 => ⟨0xF5, .sbc, .zeroPageX, [op8], 4⟩
  | .sbcAbs op16 => ⟨0xED, .sbc, .absolute, [lo op16, hi op16], 4⟩
  | .sbcAbsX op16 => ⟨0xFD, .sbc, .absoluteX, [lo op16, hi op16], 4⟩
  | .sbcAbsY op16 => ⟨0xF9, .sbc, .absoluteY, [lo op16, hi op16], 4⟩
  | .sbcIndX op8 => ⟨0xE1, .sbc, .indirectX, [op8], 6⟩
  | .sbcIndY op8 => ⟨0xF1, .sbc, .indirectY, [op8], 5⟩
  | .andImm op8 => ⟨0x29, .and, .immediate, [op8], 2⟩
  | .andZp op8 => ⟨0x25, .and, .zeroPage, [op8], 3⟩
  | .andZpX op8 => ⟨0x35, .and, .zeroPageX, [op8], 4⟩
  | .andAbs op16 => ⟨0x2D, .and, .absolute, [lo op16, hi op16], 4⟩
  | .andAbsX op16 => ⟨0x3D, .and, .absoluteX, [lo op16, hi op16], 4⟩
  | .andAbsY op16 => ⟨0x39, .and, .absoluteY, [lo op16, hi op16], 4⟩
  | .andIndX op8 => ⟨0x21, .and, .indirectX, [op8], 6⟩
  | .andIndY op8 => ⟨0x31, .and, .indirectY, [op8], 5⟩
  | .oraImm op8 => ⟨0x09, .ora, .immediate, [op8], 2⟩
  | .oraZp op8 => ⟨0x05, .ora, .zeroPage, [op8], 3⟩
  | .oraZpX op8 => ⟨0x15, .ora, .zeroPageX, [op8], 4⟩
  | .oraAbs op16 => ⟨0x0D, .ora, .absolute, [lo op16, hi op16], 4⟩
  | .oraAbsX op16 => ⟨0x1D, .ora, .absoluteX, [lo op16, hi op16], 4⟩
  | .oraAbsY op16 => ⟨0x19, .ora, .absoluteY, [lo op16, hi op16], 4⟩
  | .oraIndX op8 => ⟨0x01, .ora, .indirectX, [op8], 6⟩
  | .oraIndY op8 => ⟨0x11, .ora, .indirectY, [op8], 5⟩
  | .eorImm op8 => ⟨0x49, .eor, .immediate, [op8], 2⟩
  | .eorZp op8 => ⟨0x45, .eor, .zeroPage, [op8], 3⟩
  | .eorZpX op8 => ⟨0x55, .eor, .zeroPageX, [op8], 4⟩
  | .eorAbs op16 => ⟨0x4D, .eor, .absolute, [lo op16, hi op16], 4⟩
  | .eorAbsX op16 => ⟨0x5D, .eor, .absoluteX, [lo op16, hi op16], 4⟩
  | .eorAbsY op16 => ⟨0x59, .eor, .absoluteY, [lo op16, hi op16], 4⟩
  | .eorIndX op8 => ⟨0x41, .eor, .indirectX, [op8], 6⟩
  | .eorIndY op8 => ⟨0x51, .eor, .indirectY, [op8], 5⟩
  | .cmpImm op8 => ⟨0xC9, .cmp, .immediate, [op8], 2⟩
  | .cmpZp op8 => ⟨0xC5, .cmp, .zeroPage, [op8], 3⟩
  | .cmpZpX op8 => ⟨0xD5, .cmp, .zeroPageX, [op8], 4⟩
  | .cmpAbs op16 => ⟨0xCD, .cmp, .absolute, [lo op16, hi op16], 4⟩
  | .cmpAbsX op16 => ⟨0xDD, .cmp, .absoluteX, [lo op16, hi op16], 4⟩
  | .cmpAbsY op16 => ⟨0xD9, .cmp, .absoluteY, [lo op16, hi op16], 4⟩
  | .cmpIndX op8 => ⟨0xC1, .cmp, .indirectX, [op8], 6⟩
  | .cmpIndY op8 => ⟨0xD1, .cmp, .indirectY, [op8], 5⟩
  | .cpxImm op8 => ⟨0xE0, .cpx, .immediate, [op8], 2⟩
  | .cpxZp op8 => ⟨0xE4, .cpx, .zeroPage, [op8], 3⟩
  | .cpxAbs op16 => ⟨0xEC, .cpx, .absolute, [lo op16, hi op16], 4⟩
  | .cpyImm op8 => ⟨0xC0, .cpy, .immediate, [op8], 2⟩
  | .cpyZp op8 => ⟨0xC4, .cpy, .zeroPage, [op8], 3⟩
  | .cpyAbs op16 => ⟨0xCC, .cpy, .absolute, [lo op16, hi op16], 4⟩
  | .bitZp op8 => ⟨0x24, .bit, .zeroPage, [op8], 3⟩
  | .bitAbs op16 => ⟨0x2C, .bit, .absolute, [lo op16, hi op16], 4⟩
  | .incZp op8 => ⟨0xE6, .inc, .zeroPage, [op8], 5⟩
  | .incZpX op8 => ⟨0xF6, .inc, .zeroPageX, [op8], 6⟩
  | .incAbs op16 => ⟨0xEE, .inc, .absolute, [lo op16, hi op16], 6⟩
  | .incAbsX op16 => ⟨0xFE, .inc, .absoluteX, [lo op16, hi op16], 7⟩
  | .decZp op8 => ⟨0xC6, .dec, .zeroPage, [op8], 5⟩
  | .decZpX op8 => ⟨0xD6, .dec, .zeroPageX, [op8], 6⟩
  | .decAbs op16 => ⟨0xCE, .dec, .absolute, [lo op16, hi op16], 6⟩
  | .decAbsX op16 => ⟨0xDE, .dec, .absoluteX, [lo op16, hi op16], 7⟩
  | .inx => ⟨0xE8, .inx, .implied, [], 2⟩
  | .iny => ⟨0xC8, .iny, .implied, [], 2⟩
  | .dex => ⟨0xCA, .dex, .implied, [], 2⟩
  | .dey => ⟨0x88, .dey, .implied, [], 2⟩
  | .aslA => ⟨0x0A, .asl, .accumulator, [], 2⟩
  | .aslZp op8 => ⟨0x06, .asl, .zeroPage, [op8], 5⟩
  | .aslZpX op8 => ⟨0x16, .asl, .zeroPageX, [op8], 6⟩
  | .aslAbs op16 => ⟨0x0E, .asl, .absolute, [lo op16, hi op16], 6⟩
  | .aslAbsX op16 => ⟨0x1E, .asl, .absoluteX, [lo op16, hi op16], 7⟩
  | .lsrA => ⟨0x4A, .lsr, .accumulator, [], 2⟩
  | .lsrZp op8 => ⟨0x46, .lsr, .zeroPage, [op8], 5⟩
  | .lsrZpX op8 => ⟨0x56, .lsr, .zeroPageX, [op8], 6⟩
  | .lsrAbs op16 => ⟨0x4E, .lsr, .absolute, [lo op16, hi op16], 6⟩
  | .lsrAbsX op16 => ⟨0x5E, .lsr, .absoluteX, [lo op16, hi op16], 7⟩
  | .rolA => ⟨0x2A, .rol, .accumulator, [], 2⟩
  | .rolZp op8 => ⟨0x26, .rol, .zeroPage, [op8], 5⟩
  | .rolZpX op8 => ⟨0x36, .rol, .zeroPageX, [op8], 6⟩
  | .rolAbs op16 => ⟨0x2E, .rol, .absolute, [lo op16, hi op16], 6⟩
  | .rolAbsX op16 => ⟨0x3E, .rol, .absoluteX, [lo op16, hi op16], 7⟩
  | .rorA => ⟨0x6A, .ror, .accumulator, [], 2⟩
  | .rorZp op8 => ⟨0x66, .ror, .zeroPage, [op8], 5⟩
  | .rorZpX op8 => ⟨0x76, .ror, .zeroPageX, [op8], 6⟩
  | .rorAbs op16 => ⟨0x6E, .ror, .absolute, [lo op16, hi op16], 6⟩
  | .rorAbsX op16 => ⟨0x7E, .ror, .absoluteX, [lo op16, hi op16], 7⟩
  | .bpl op8 => ⟨0x10, .bpl, .relative, [op8], 2⟩
  | .bmi op8 => ⟨0x30, .bmi, .relative, [op8], 2⟩
  | .bvc op8 => ⟨0x50, .bvc, .relative, [op8], 2⟩
  | .bvs op8 => ⟨0x70, .bvs, .relative, [op8], 2⟩
  | .bcc op8 => ⟨0x90, .bcc, .relative, [op8], 2⟩
  | .bcs op8 => ⟨0xB0, .bcs, .relative, [op8], 2⟩
  | .bne op8 => ⟨0xD0, .bne, .relative, [op8], 2⟩
  | .beq op8 => ⟨0xF0, .beq, .relative, [op8], 2⟩
  | .jmpAbs op16 => ⟨0x4C, .jmp, .absolute, [lo op16, hi op16], 3⟩
  | .jmpInd op16 => ⟨0x6C, .jmp, .indirect, [lo op16, hi op16], 5⟩
  | .jsr op16 => ⟨0x20, .jsr, .absolute, [lo op16, hi op16], 6⟩
  | .rts => ⟨0x60, .rts, .implied, [], 6⟩
  | .rti => ⟨0x40, .rti, .implied, [], 6⟩
  | .pha => ⟨0x48, .pha, .implied, [], 3⟩
  | .php => ⟨0x08, .php, .implied, [], 3⟩
  | .pla => ⟨0x68, .pla, .implied, [], 4⟩
  | .plp => ⟨0x28, .plp, .implied, [], 4⟩
  | .clc => ⟨0x18, .clc, .implied, [], 2⟩
  | .sec => ⟨0x38, .sec, .implied, [], 2⟩
  | .cli => ⟨0x58, .cli, .implied, [], 2⟩
  | .sei => ⟨0x78, .sei, .implied, [], 2⟩
  | .clv => ⟨0xB8, .clv, .implied, [], 2⟩
  | .cld => ⟨0xD8, .cld, .implied, [], 2⟩
  | .sed => ⟨0xF8, .sed, .implied, [], 2⟩
  | .nop => ⟨0xEA, .nop, .implied, [], 2⟩
  | .nopU1A => ⟨0x1A, .nopStar, .implied, [], 2⟩
  | .nopU3A => ⟨0x3A, .nopStar, .implied, [], 2⟩
  | .nopU5A => ⟨0x5A, .nopStar, .implied, [], 2⟩
  | .nopU7A => ⟨0x7A, .nopStar, .implied, [], 2⟩
  | .nopUDA => ⟨0xDA, .nopStar, .implied, [], 2⟩
  | .nopUFA => ⟨0xFA, .nopStar, .implied, [], 2⟩
  | .nopU80 op8 => ⟨0x80, .nopStar, .immediate, [op8], 2⟩
  | .nopU82 op8 => ⟨0x82, .nopStar, .immediate, [op8], 2⟩
  | .nopU89 op8 => ⟨0x89, .nopStar, .immediate, [op8], 2⟩
  | .nopUC2 op8 => ⟨0xC2, .nopStar, .immediate, [op8], 2⟩
  | .nopUE2 op8 => ⟨0xE2, .nopStar, .immediate, [op8], 2⟩
  | .nopU04 op8 => ⟨0x04, .nopStar, .zeroPage, [op8], 3⟩
  | .nopU44 op8 => ⟨0x44, .nopStar, .zeroPage, [op8], 3⟩
  | .nopU64 op8 => ⟨0x64, .nopStar, .zeroPage, [op8], 3⟩
  | .nopU14 op8 => ⟨0x14, .nopStar, .zeroPageX, [op8], 4⟩
  | .nopU34 op8 => ⟨0x34, .nopStar, .zeroPageX, [op8], 4⟩
  | .nopU54 op8 => ⟨0x54, .nopStar, .zeroPageX, [op8], 4⟩
  | .nopU74 op8 => ⟨0x74, .nopStar, .zeroPageX, [op8], 4⟩
  | .nopUD4 op8 => ⟨0xD4, .nopStar, .zeroPageX, [op8], 4⟩
  | .nopUF4 op8 => ⟨0xF4, .nopStar, .zeroPageX, [op8], 4⟩
  | .nopU0C op16 => ⟨0x0C, .nopStar, .absolute, [lo op16, hi op16], 4⟩
  | .nopU1C op16 => ⟨0x1C, .nopStar, .absoluteX, [lo op16, hi op16], 4⟩
  | .nopU3C op16 => ⟨0x3C, .nopStar, .absoluteX, [lo op16, hi op16], 4⟩
  | .nopU5C op16 => ⟨0x5C, .nopStar, .absoluteX, [lo op16, hi op16], 4⟩
  | .nopU7C op16 => ⟨0x7C, .nopStar, .absoluteX, [lo op16, hi op16], 4⟩
  | .nopUDC op16 => ⟨0xDC, .nopStar, .absoluteX, [lo op16, hi op16], 4⟩
  | .nopUFC op16 => ⟨0xFC, .nopStar, .absoluteX, [lo op16, hi op16], 4⟩

/-- The encoder: the bytes of an instruction, the opcode first. -/
def encode (i : Instr) : List Byte :=
  i.info.opcode :: i.info.operand

end Sys2Proof
end

