-- ==== Sys2Proof/Machine/Memory.lean ====
section
/-! DEFINITION. The byte store: reading and writing one byte of an array, and its canonical form. -/

namespace Sys2Proof

/-- What a byte that an array does not list reads as. DESIGN CHOICE for the arrays whose reset
contents the spec leaves unspecified (log entry 3); the APU bank's slots are 0 by R291. -/
def Memory.unlisted : Byte := 0

/-- The byte at index `i`. -/
def Memory.read (m : Memory) (i : Nat) : Byte :=
  match m with
  | [] => Memory.unlisted
  | (k, v) :: rest => if k = i then v else Memory.read rest i

/-- The array without its entry for `i`. -/
def Memory.erase (m : Memory) (i : Nat) : Memory :=
  match m with
  | [] => []
  | (k, v) :: rest => if k = i then Memory.erase rest i else (k, v) :: Memory.erase rest i

/-- An entry put in its place in the rising order. -/
def Memory.insert (m : Memory) (i : Nat) (v : Byte) : Memory :=
  match m with
  | [] => [(i, v)]
  | (k, w) :: rest => if i < k then (i, v) :: (k, w) :: rest else (k, w) :: Memory.insert rest i v

/-- The array after the byte at index `i` becomes `v`: writing what an unlisted byte reads as
removes the entry. -/
def Memory.write (m : Memory) (i : Nat) (v : Byte) : Memory :=
  let rest := Memory.erase m i
  if v = Memory.unlisted then rest else Memory.insert rest i v

/-- Indices rise strictly along the list. -/
def Memory.rising : Memory → Bool
  | [] => true
  | [_] => true
  | (i, _) :: (j, v) :: rest => decide (i < j) && Memory.rising ((j, v) :: rest)

/-- The canonical form: strictly rising indices, and no entry equal to an unlisted byte. -/
def Memory.wf (m : Memory) : Bool :=
  Memory.rising m && m.all fun c => c.2 != Memory.unlisted

/-- Every listed index is below `n`, the size of the array. -/
def Memory.below (n : Nat) (m : Memory) : Bool :=
  m.all fun c => decide (c.1 < n)

end Sys2Proof
end

