-- ==== Sys2Proof/Machine/Update.lean ====
section
/-! DEFINITION. The named single-component updates of State, the sequencing of accesses, the raising
of a fault, and the taking of a free value. -/

namespace Sys2Proof.Machine

/-! The laws of these updates, one per field, stand in Sys2Proof/Laws/State.lean. -/

def State.setA (s : State) (v : Byte) : State := { s with a := v }
def State.setX (s : State) (v : Byte) : State := { s with x := v }
def State.setY (s : State) (v : Byte) : State := { s with y := v }
def State.setSp (s : State) (v : Byte) : State := { s with sp := v }
def State.setPc (s : State) (v : Addr) : State := { s with pc := v }
def State.setP (s : State) (v : Flags) : State := { s with p := v }
def State.setRam (s : State) (v : Memory) : State := { s with ram := v }
def State.setPpu (s : State) (v : Ppu) : State := { s with ppu := v }
def State.setApu (s : State) (v : Apu) : State := { s with apu := v }
def State.setCtl (s : State) (v : Controller) : State := { s with ctl := v }
def State.setMapper (s : State) (v : Mapper) : State := { s with mapper := v }
def State.setNmiPrev (s : State) (v : Bool) : State := { s with nmiPrev := v }
def State.setExtraCycles (s : State) (v : Nat) : State := { s with extraCycles := v }
def State.setHalted (s : State) (v : Option HaltReason) : State := { s with halted := v }
def State.setDraws (s : State) (v : Nat) : State := { s with draws := v }
def State.setButtonDraws (s : State) (v : Nat) : State := { s with buttonDraws := v }

/-- Reading one of the registers `R` (R10). -/
def State.reg (s : State) : Reg → Byte
  | .a => s.a
  | .x => s.x
  | .y => s.y

/-- Writing one of the registers `R` (R10). -/
def State.setReg (s : State) (r : Reg) (v : Byte) : State :=
  match r with
  | .a => s.setA v
  | .x => s.setX v
  | .y => s.setY v

/-- Pseudocode is sequential, and a fault ends it (R12, R250). -/
def Access.bind {α β : Type} (r : Access α) (k : α → State → Access β) : Access β :=
  match r with
  | .done v s => k v s
  | .raised f => .raised f

/-- The last part of an instruction, after an access. -/
def Access.andThen {α : Type} (r : Access α) (k : α → State → Outcome) : Outcome :=
  match r with
  | .done v s => k v s
  | .raised f => .fault f

/-- `raise F(info)`: `halted` is set and everything else stays as it is (R250, R256). -/
def raise (reason : HaltReason) (s : State) : Fault :=
  let final := s.setHalted (some reason)
  match reason with
  | .unimplementedOpcode opcode n => .unimplementedOpcode opcode n final
  | .illegalAddressingOperation opcode m => .illegalAddressingOperation opcode m final
  | .writeOnlyRegisterRead a => .writeOnlyRegisterRead a final
  | .unmappedIoRead a => .unmappedIoRead a final

/-- `draw()` (R11): the next free byte. -/
def draw (s : State) : Byte × State :=
  (Config.draw s.draws, s.setDraws (s.draws + 1))

/-- `Buttons()` (R87): a fresh sample of the host's button byte. -/
def sampleButtons (s : State) : Byte × State :=
  (Config.buttons s.buttonDraws, s.setButtonDraws (s.buttonDraws + 1))

end Sys2Proof.Machine
end

