-- ==== Sys2Proof/Machine/Devices.lean ====
section
/-! DEFINITION. The audio register bank and the controller port (spec/20_memory.md sections 6 and 7). -/

namespace Sys2Proof.Machine

/-- A read of the APU bank: the last byte written there (R81). -/
def apuRead (a : Addr) (s : State) : Byte := Memory.read s.apu.bank a.toNat

/-- A write that stores a byte in the APU bank; $400B and $400F also set a reload flag (R82, R83). -/
def apuWrite (a : Addr) (v : Byte) (s : State) : State :=
  s.setApu
    { bank := Memory.write s.apu.bank a.toNat v
      reloadLinear := s.apu.reloadLinear || a.toNat == 0x400B
      reloadNoise := s.apu.reloadNoise || a.toNat == 0x400F }

/-- The latch takes a fresh sample of the buttons (R87, R88). -/
def resample (s : State) : State :=
  let sample := sampleButtons s
  sample.2.setCtl { s.ctl with latch := sample.1 }

/-- `CtlWrite(v)` (R87): only bit 0 counts. -/
def ctlWrite (v : Byte) (s : State) : State :=
  if bit v 0 then
    let s := resample s
    s.setCtl { s.ctl with strobe := true }
  else if s.ctl.strobe then
    let s := resample s
    s.setCtl { s.ctl with readBit := 0, strobe := false }
  else s

/-- `CtlRead()` (R88). -/
def ctlRead (s : State) : Byte × State :=
  if s.ctl.strobe then
    let s := resample s
    (ofBit (bit s.ctl.latch 0), s)
  else if h : s.ctl.readBit.val < 8 then
    (ofBit (bit s.ctl.latch s.ctl.readBit.val),
      s.setCtl { s.ctl with readBit := ⟨s.ctl.readBit.val + 1, by omega⟩ })
  else (1, s)

end Sys2Proof.Machine
end

