-- ==== Sys2Proof/Machine/Mapper.lean ====
section
/-! DEFINITION. The cartridge mapper (spec/20_memory.md section 8): PRG reads and the MMC1 serial
shift register. -/

namespace Sys2Proof.Machine

/-- `PrgFixed`'s index into PRG for an address in $8000-$FFFF, none where it draws (R91). -/
def prgIndex (cart : Cartridge) (params : Params) (a : Addr) : Option Nat :=
  let a := a.toNat
  if cart.prgBanks = 1 then
    if 0xC000 ≤ a then some (a - 0xC000)
    else
      match params.nrom16Low with
      | .mirror => some (a - 0x8000)
      | .unmapped => none
  else if a < 0xC000 then some (a - 0x8000)
  else
    match params.nrom32Upper with
    | .secondHalf => some (a - 0x8000)
    | .firstHalf => some (a - 0xC000)

/-- `PrgFixed(a)` (R91). -/
def prgFixed (a : Addr) (s : State) : Byte × State :=
  match prgIndex s.cart s.params a with
  | some i => (Memory.read s.cart.prg i, s)
  | none => draw s

/-- `MapperRead(a)` (R90): NROM and MMC1 read the fixed mapping (R91, R97), an unsupported mapper
draws (R98). -/
def mapperRead (a : Addr) (s : State) : Byte × State :=
  match s.mapper with
  | .nrom => prgFixed a s
  | .mmc1 _ => prgFixed a s
  | .unsupported _ => draw s

/-- The MMC1 latch of the fifth serial write: `v` goes to the register a[14:13] selects, and the
shift register back to its sentinel (R93, R96). -/
def Mmc1.latch (r : Mmc1) (a : Addr) (v : BitVec 5) : Mmc1 :=
  match a.toNat / 0x2000 % 4 with
  | 0 => { r with shift := 0x10, control := v }
  | 1 => { r with shift := 0x10, chr0 := v }
  | 2 => { r with shift := 0x10, chr1 := v }
  | _ => { r with shift := 0x10, prg := v }

/-- `MapperWrite_MMC1(a, v)` (R93-R96). -/
def Mmc1.write (r : Mmc1) (a : Addr) (v : Byte) : Mmc1 :=
  if bit v 7 then { r with shift := 0x10, control := r.control ||| 0x0C }
  else
    let full := r.shift.getLsbD 0
    let shift := (r.shift >>> 1) ||| (if bit v 0 then 0x10 else 0)
    if full then r.latch a shift else { r with shift := shift }

/-- `MapperWrite(a, v)` (R90): no effect on NROM (R92) and on an unsupported mapper (R98). -/
def mapperWrite (a : Addr) (v : Byte) (s : State) : State :=
  match s.mapper with
  | .nrom => s
  | .mmc1 r => s.setMapper (.mmc1 (r.write a v))
  | .unsupported _ => s

end Sys2Proof.Machine
end

