-- ==== Sys2Proof/Machine/Ppu.lean ====
section
/-! DEFINITION. The PPU register window and the VRAM space behind it (spec/20_memory.md sections 4 and 5). -/

namespace Sys2Proof.Machine

/-- `VramInc()` (R76). -/
def vramInc (u : Ppu) : Addr := if bit u.ctrl 2 then 32 else 1

/-- `NtBank(t)` for the logical nametable t = 0..3 (R78). -/
def ntBank (m : Mirroring) (t : Nat) : Nat :=
  match m with
  | .horizontal => t / 2
  | .vertical => t % 2
  | .singleLower => 0
  | .singleUpper => 1
  | .fourScreen => t

/-- The palette index of a VRAM address at or above $3F00: 32 bytes mirrored, with $10, $14, $18 and
$1C the same bytes as $00, $04, $08 and $0C (R77, R79). -/
def palIndex (p : Nat) : Nat :=
  let i := p % 0x20
  if i = 0x10 ∨ i = 0x14 ∨ i = 0x18 ∨ i = 0x1C then i - 0x10 else i

/-- `VramTranslate(w)` (R77). -/
def vramTranslate (m : Mirroring) (w : Addr) : VramPlace :=
  let p := w.toNat % 0x4000
  if p < 0x2000 then .chr p
  else if p < 0x3F00 then
    let n := (p - 0x2000) % 0x1000
    .nt (ntBank m (n / 0x400) * 0x400 + n % 0x400)
  else .pal (palIndex p)

/-- `VramRead(w)` (R77-R80). -/
def vramRead (cart : Cartridge) (w : Addr) (u : Ppu) : Byte :=
  match vramTranslate cart.mirroring w with
  | .chr p => if cart.chrBanks = 0 then Memory.read u.chrRam p else Memory.read cart.chr p
  | .nt i => Memory.read u.nt i
  | .pal i => Memory.read u.pal i

/-- `VramWrite(w, v)` (R77-R80): CHR-ROM ignores the write, CHR-RAM takes it. -/
def vramWrite (cart : Cartridge) (w : Addr) (v : Byte) (u : Ppu) : Ppu :=
  match vramTranslate cart.mirroring w with
  | .chr p => if cart.chrBanks = 0 then { u with chrRam := Memory.write u.chrRam p v } else u
  | .nt i => { u with nt := Memory.write u.nt i v }
  | .pal i => { u with pal := Memory.write u.pal i v }

/-- A $2002 read clears vblank, and the toggle where the parameter says so (R66). -/
def statusRead (params : Params) (u : Ppu) : Ppu :=
  { u with
    status := u.status &&& 0x7F
    addrToggle := if params.statusReadResetsToggle then false else u.addrToggle }

/-- A $2004 write (R69). -/
def oamDataWrite (v : Byte) (u : Ppu) : Ppu :=
  { u with oam := Memory.write u.oam u.oamAddr.toNat v, oamAddr := u.oamAddr + 1 }

/-- A $2005 write, on the $2006 toggle or on its own (R71). -/
def scrollWrite (params : Params) (v : Byte) (u : Ppu) : Ppu :=
  let second := if params.scrollSharesToggle then u.addrToggle else u.scrollToggle
  let u := if second then { u with scroll1 := v } else { u with scroll0 := v }
  if params.scrollSharesToggle then { u with addrToggle := !second }
  else { u with scrollToggle := !second }

/-- A $2006 write: the high byte, then the low byte (R72). -/
def vramAddrWrite (v : Byte) (u : Ppu) : Ppu :=
  if u.addrToggle then { u with vramAddr := word (hi u.vramAddr) v, addrToggle := false }
  else { u with vramAddr := word v (lo u.vramAddr), addrToggle := true }

/-- A $2007 read refills the buffer, then increments the address (R74). -/
def dataRead (cart : Cartridge) (u : Ppu) : Ppu :=
  { u with readBuffer := vramRead cart u.vramAddr u, vramAddr := u.vramAddr + vramInc u }

/-- A $2007 write stores, then increments the address (R75). -/
def dataWrite (cart : Cartridge) (v : Byte) (u : Ppu) : Ppu :=
  let u := vramWrite cart u.vramAddr v u
  { u with vramAddr := u.vramAddr + vramInc u }

/-- `PpuRead(a, a & 7)` (R63-R74); the write-only registers reject the read (R253). -/
def ppuRead (a : Addr) (s : State) : Access Byte :=
  match a.toNat % 8 with
  | 2 => .done s.ppu.status (s.setPpu (statusRead s.params s.ppu))
  | 4 => .done (Memory.read s.ppu.oam s.ppu.oamAddr.toNat) s
  | 7 => .done s.ppu.readBuffer (s.setPpu (dataRead s.cart s.ppu))
  | _ => .raised (raise (.writeOnlyRegisterRead a) s)

/-- `PpuWrite(a & 7, v)` (R63-R75). -/
def ppuWrite (a : Addr) (v : Byte) (s : State) : State :=
  match a.toNat % 8 with
  | 0 => s.setPpu { s.ppu with ctrl := v }
  | 1 => s.setPpu { s.ppu with mask := v }
  | 2 => s
  | 3 => s.setPpu { s.ppu with oamAddr := v }
  | 4 => s.setPpu (oamDataWrite v s.ppu)
  | 5 => s.setPpu (scrollWrite s.params v s.ppu)
  | 6 => s.setPpu (vramAddrWrite v s.ppu)
  | _ => s.setPpu (dataWrite s.cart v s.ppu)

end Sys2Proof.Machine
end

