-- ==== Sys2Proof/Machine/Bus.lean ====
section
/-! DEFINITION. The bus decode of the 64 KiB CPU address space (spec/20_memory.md sections 1 and 3),
two-byte reads, and the OAM DMA. -/

namespace Sys2Proof.Machine

/-- The RAM cell of an address in $0000-$1FFF (R62). -/
def ramIndex (a : Addr) : Nat := a.toNat % 0x800

/-- `RAM[a & $07FF]` (R62). -/
def ramRead (a : Addr) (s : State) : Byte := Memory.read s.ram (ramIndex a)

/-- `RAM[a & $07FF] <- v` (R62). -/
def ramWrite (a : Addr) (v : Byte) (s : State) : State :=
  s.setRam (Memory.write s.ram (ramIndex a) v)

/-- `MemRead(a, 1)` (R60). -/
def busRead (a : Addr) (s : State) : Access Byte :=
  let n := a.toNat
  if n < 0x2000 then .done (ramRead a s) s
  else if n < 0x4000 then ppuRead a s
  else if n < 0x4010 then .done (apuRead a s) s
  else if n = 0x4015 then .done (apuRead a s) s
  else if n = 0x4016 then
    let r := ctlRead s
    .done r.1 r.2
  else if n < 0x4020 then .raised (raise (.unmappedIoRead a) s)
  else if n < 0x8000 then
    let r := draw s
    .done r.1 r.2
  else
    let r := mapperRead a s
    .done r.1 r.2

/-- `MemRead(a, 2)` (R58): at or below $1FFF both bytes come from RAM, each address masked. -/
def busRead16 (a : Addr) (s : State) : Access Addr :=
  if a.toNat < 0x2000 then .done (word (ramRead (a + 1) s) (ramRead a s)) s
  else
    (busRead a s).bind fun l s =>
    (busRead (a + 1) s).bind fun h s =>
    .done (word h l) s

/-- The last `n` of the 256 byte copies of an OAM DMA from the page `page` (R86). -/
def dmaCopy (page : Byte) : Nat → State → Access Unit
  | 0, s => .done () s
  | n + 1, s =>
    let i := 255 - n
    (busRead (word page (BitVec.ofNat 8 i)) s).bind fun v s =>
    dmaCopy page n (s.setPpu { s.ppu with oam := Memory.write s.ppu.oam i v })

/-- `OamDma(v)` (R86): 256 bus reads into OAM, then the one-shot stall is armed. -/
def oamDma (page : Byte) (s : State) : Access Unit :=
  (dmaCopy page 256 s).bind fun _ s => .done () (s.setExtraCycles 513)

/-- `MemWrite(a, 1, v)` (R61). -/
def busWrite (a : Addr) (v : Byte) (s : State) : Access Unit :=
  let n := a.toNat
  if n < 0x2000 then .done () (ramWrite a v s)
  else if n < 0x4000 then .done () (ppuWrite a v s)
  else if n = 0x4014 then oamDma v s
  else if n = 0x4016 then .done () (ctlWrite v s)
  else if n < 0x4018 then .done () (apuWrite a v s)
  else if n < 0x8000 then .done () s
  else .done () (mapperWrite a v s)

/-- A byte of RAM or of the mapped PRG image, seen without a bus access: none for a device register
and for an address that draws. -/
def peek (s : State) (a : Addr) : Option Byte :=
  if a.toNat < 0x2000 then some (ramRead a s)
  else if a.toNat < 0x8000 then none
  else
    match s.mapper with
    | .unsupported _ => none
    | _ => (prgIndex s.cart s.params a).map (Memory.read s.cart.prg)

end Sys2Proof.Machine
end

