-- ==== Sys2Proof/Machine/Operands.lean ====
section
/-! DEFINITION. The addressing-mode resolver (spec/30_encoding.md section 2): every operand form, its
effective address, its read, its write and its program-counter step. -/

namespace Sys2Proof.Machine

/-- `ZpPointer(p)` (R133). The pointer's bytes lie in RAM, so reading them changes nothing and cannot
fault (log entry 12). -/
def zpPointer (p : Byte) (s : State) : Addr :=
  match s.params.zpPointerWrap with
  | .wrap => word (ramRead (zext (p + 1)) s) (ramRead (zext p) s)
  | .none => word (ramRead (zext p + 1) s) (ramRead (zext p) s)

/-- The resolver (R125-R135). -/
def place (o : Operand) (s : State) : Place :=
  match o with
  | .accumulator => .accumulator
  | .immediate v => .immediate v
  | .zeroPage b => .memory (zext b)
  | .zeroPageX b => .memory (zext (b + s.x))
  | .zeroPageY b => .memory (zext (b + s.y))
  | .absolute w => .memory w
  | .absoluteX w => .memory (w + zext s.x)
  | .absoluteY w => .memory (w + zext s.y)
  | .indirectX b => .memory (zpPointer (b + s.x) s)
  | .indirectY b => .memory (zpPointer b s + zext s.y)
  | .relative d => .relative d

/-- `ModeRead(mode)` of a resolved operand. -/
def modeRead (p : Place) (s : State) : Access Byte :=
  match p with
  | .accumulator => .done s.a s
  | .immediate v => .done v s
  | .memory ea => busRead ea s
  | .relative d => .done d s

/-- `ModeWrite(mode, v)` of a resolved operand; Immediate and Relative are read-only (R126, R135, R252). -/
def modeWrite (opcode : Byte) (p : Place) (v : Byte) (s : State) : Access Unit :=
  match p with
  | .accumulator => .done () (s.setA v)
  | .immediate _ => .raised (raise (.illegalAddressingOperation opcode .immediate) s)
  | .memory ea => busWrite ea v s
  | .relative _ => .raised (raise (.illegalAddressingOperation opcode .relative) s)

/-- `step(mode)` (R122). -/
def Operand.step : Operand → Addr
  | .accumulator => 0
  | .immediate _ => 1
  | .zeroPage _ => 1
  | .zeroPageX _ => 1
  | .zeroPageY _ => 1
  | .absolute _ => 2
  | .absoluteX _ => 2
  | .absoluteY _ => 2
  | .indirectX _ => 1
  | .indirectY _ => 1
  | .relative _ => 0

/-- The closing `PC <- (PC + step(mode)) mod 65536` of an instruction (R122). -/
def advance (o : Operand) (s : State) : State := s.setPc (s.pc + o.step)

/-- The resolver operand of an addressing mode and its operand bytes; none for Implied and Indirect,
which are outside the resolver (R123). -/
def Operand.ofMode (mode : AddrMode) (bytes : List Byte) : Option Operand :=
  match mode, bytes with
  | .accumulator, [] => some .accumulator
  | .immediate, [b] => some (.immediate b)
  | .zeroPage, [b] => some (.zeroPage b)
  | .zeroPageX, [b] => some (.zeroPageX b)
  | .zeroPageY, [b] => some (.zeroPageY b)
  | .absolute, [l, h] => some (.absolute (word h l))
  | .absoluteX, [l, h] => some (.absoluteX (word h l))
  | .absoluteY, [l, h] => some (.absoluteY (word h l))
  | .indirectX, [b] => some (.indirectX b)
  | .indirectY, [b] => some (.indirectY b)
  | .relative, [b] => some (.relative b)
  | _, _ => none

end Sys2Proof.Machine

namespace Sys2Proof

/-- The resolver operand of an instruction, read off its opcode-table row. -/
def Instr.operand (i : Instr) : Option Machine.Operand :=
  Machine.Operand.ofMode i.info.mode i.info.operand

end Sys2Proof
end

