-- ==== Sys2Proof/Machine/Ops.lean ====
section
/-! DEFINITION. The named operations the meanings share: the stack, the vectors, taking the NMI and
returning from it, and the shapes of the instruction families. -/

namespace Sys2Proof.Machine

/-- The address of the stack slot SP names, in page 1 (R22, R55). -/
def stackAddr (sp : Byte) : Addr := word 0x01 sp

/-- `Push(v)` (R55). The slot lies in RAM, so the bus write is the RAM write (R57). -/
def push (v : Byte) (s : State) : State :=
  (ramWrite (stackAddr s.sp) v s).setSp (s.sp - 1)

/-- `Pull()` (R56). The slot lies in RAM, so the bus read is the RAM read (R57). -/
def pull (s : State) : Byte × State :=
  let sp := s.sp + 1
  (ramRead (stackAddr sp) s, s.setSp sp)

/-- A word pushed high byte first (R221, R262). -/
def pushWord (w : Addr) (s : State) : State := push (lo w) (push (hi w) s)

/-- A word pulled low byte first (R222, R223). -/
def pullWord (s : State) : Addr × State :=
  let l := pull s
  let h := pull l.2
  (word h.1 l.1, h.2)

/-- The NMI vector address (R59). -/
def nmiVector : Addr := 0xFFFA

/-- The reset vector address (R59). -/
def resetVector : Addr := 0xFFFC

/-- `MemRead(vector, 2)` for a vector in $8000-$FFFE: two mapper reads, low byte first (R58, R59). -/
def readVector (a : Addr) (s : State) : Addr × State :=
  let l := mapperRead a s
  let h := mapperRead (a + 1) l.2
  (word h.1 l.1, h.2)

/-- `NmiLine()` (R260). -/
def nmiLine (s : State) : Bool := bit s.ppu.ctrl 7 && bit s.ppu.status 7

/-- `NmiSample()` (R261): whether the NMI fires, and the state after the sample. -/
def nmiSample (s : State) : Bool × State :=
  let line := nmiLine s
  (line && !s.nmiPrev, s.setNmiPrev line)

/-- `NmiEntry()` (R262): taking the machine's one exception. PC is pushed high byte first, then the
status byte with bit 4 clear; I is set; PC comes from the NMI vector. -/
def nmiEntry (s : State) : State :=
  let s := push (s.p.toByte false) (pushWord s.pc s)
  let s := s.setP { s.p with i := true }
  let v := readVector nmiVector s
  v.2.setPc v.1

/-- Returning from it (R223, R265): the status byte, then the PC low byte first; PC is not adjusted. -/
def returnFromInterrupt (s : State) : State :=
  let p := pull s
  let s := p.2.setP (Flags.ofByte p.1)
  let w := pullWord s
  w.2.setPc w.1

/-- `setZN(v)` on the state (R13). -/
def setZN (v : Byte) (s : State) : State := s.setP (s.p.setZN v)

/-- A load (R151-R153). -/
def load (r : Reg) (o : Operand) (s : State) : Outcome :=
  (modeRead (place o s) s).andThen fun v s =>
  .next (advance o (setZN v (s.setReg r v)))

/-- A store (R154-R156): no read of the target (R138). -/
def store (opcode : Byte) (r : Reg) (o : Operand) (s : State) : Outcome :=
  (modeWrite opcode (place o s) (s.reg r) s).andThen fun _ s =>
  .next (advance o s)

/-- An instruction that combines A with its operand into A (R173-R177). -/
def accumulate (f : Byte → Byte → Flags → Byte × Flags) (o : Operand) (s : State) : Outcome :=
  (modeRead (place o s) s).andThen fun m s =>
  let r := f s.a m s.p
  .next (advance o ((s.setA r.1).setP r.2))

/-- A logical operation as an accumulating one: N and Z from the result (R175-R177). -/
def logical (f : Byte → Byte → Byte) (a m : Byte) (p : Flags) : Byte × Flags :=
  (f a m, p.setZN (f a m))

/-- An instruction that only sets flags from a register and its operand (R178-R182). -/
def testFlags (f : Byte → Byte → Flags → Flags) (r : Reg) (o : Operand) (s : State) : Outcome :=
  (modeRead (place o s) s).andThen fun m s =>
  .next (advance o (s.setP (f (s.reg r) m s.p)))

/-- A read-modify-write instruction: one read and one write at the operand resolved once (R138, R189,
R200). -/
def modify (opcode : Byte) (f : Byte → Flags → Byte × Flags) (o : Operand) (s : State) : Outcome :=
  let p := place o s
  (modeRead p s).andThen fun v s =>
  let r := f v s.p
  (modeWrite opcode p r.1 s).andThen fun _ s =>
  .next (advance o (s.setP r.2))

/-- An increment or decrement of a register (R185-R188). -/
def modifyReg (f : Byte → Flags → Byte × Flags) (r : Reg) (s : State) : Outcome :=
  let v := f (s.reg r) s.p
  .next ((s.setReg r v.1).setP v.2)

/-- A register takes a value and N and Z follow it: the transfers and PLA (R157-R161, R233). -/
def transfer (r : Reg) (v : Byte) (s : State) : Outcome :=
  .next (setZN v (s.setReg r v))

/-- A branch (R210): PC at the displacement byte moves past it, then the displacement applies. -/
def branch (taken : Bool) (d : Byte) (s : State) : Outcome :=
  let s := s.setPc (s.pc + 1)
  .next (if taken then s.setPc (s.pc + sext d) else s)

/-- A flag instruction (R235-R241). -/
def setFlags (f : Flags → Flags) (s : State) : Outcome := .next (s.setP (f s.p))

end Sys2Proof.Machine
end

