-- ==== Sys2Proof/Machine/Arith.lean ====
section
/-! DEFINITION. The meanings of the arithmetic, logic, compare, bit test, increment and decrement
(spec/41_arith_logic.md).
A meaning starts with PC at the first operand byte (spec/40_load_store_transfer.md R150). -/

namespace Sys2Proof.Machine

/-! ADC (R173). -/

def execAdcImm (op8 : Byte) (s : State) : Outcome := accumulate addWithCarry (.immediate op8) s
def execAdcZp (op8 : Byte) (s : State) : Outcome := accumulate addWithCarry (.zeroPage op8) s
def execAdcZpX (op8 : Byte) (s : State) : Outcome := accumulate addWithCarry (.zeroPageX op8) s
def execAdcAbs (op16 : Addr) (s : State) : Outcome := accumulate addWithCarry (.absolute op16) s
def execAdcAbsX (op16 : Addr) (s : State) : Outcome := accumulate addWithCarry (.absoluteX op16) s
def execAdcAbsY (op16 : Addr) (s : State) : Outcome := accumulate addWithCarry (.absoluteY op16) s
def execAdcIndX (op8 : Byte) (s : State) : Outcome := accumulate addWithCarry (.indirectX op8) s
def execAdcIndY (op8 : Byte) (s : State) : Outcome := accumulate addWithCarry (.indirectY op8) s

/-! SBC (R174). -/

def execSbcImm (op8 : Byte) (s : State) : Outcome := accumulate subtractWithBorrow (.immediate op8) s
def execSbcZp (op8 : Byte) (s : State) : Outcome := accumulate subtractWithBorrow (.zeroPage op8) s
def execSbcZpX (op8 : Byte) (s : State) : Outcome := accumulate subtractWithBorrow (.zeroPageX op8) s
def execSbcAbs (op16 : Addr) (s : State) : Outcome := accumulate subtractWithBorrow (.absolute op16) s
def execSbcAbsX (op16 : Addr) (s : State) : Outcome := accumulate subtractWithBorrow (.absoluteX op16) s
def execSbcAbsY (op16 : Addr) (s : State) : Outcome := accumulate subtractWithBorrow (.absoluteY op16) s
def execSbcIndX (op8 : Byte) (s : State) : Outcome := accumulate subtractWithBorrow (.indirectX op8) s
def execSbcIndY (op8 : Byte) (s : State) : Outcome := accumulate subtractWithBorrow (.indirectY op8) s

/-! AND (R175). -/

def execAndImm (op8 : Byte) (s : State) : Outcome := accumulate (logical (· &&& ·)) (.immediate op8) s
def execAndZp (op8 : Byte) (s : State) : Outcome := accumulate (logical (· &&& ·)) (.zeroPage op8) s
def execAndZpX (op8 : Byte) (s : State) : Outcome := accumulate (logical (· &&& ·)) (.zeroPageX op8) s
def execAndAbs (op16 : Addr) (s : State) : Outcome := accumulate (logical (· &&& ·)) (.absolute op16) s
def execAndAbsX (op16 : Addr) (s : State) : Outcome := accumulate (logical (· &&& ·)) (.absoluteX op16) s
def execAndAbsY (op16 : Addr) (s : State) : Outcome := accumulate (logical (· &&& ·)) (.absoluteY op16) s
def execAndIndX (op8 : Byte) (s : State) : Outcome := accumulate (logical (· &&& ·)) (.indirectX op8) s
def execAndIndY (op8 : Byte) (s : State) : Outcome := accumulate (logical (· &&& ·)) (.indirectY op8) s

/-! ORA (R176). -/

def execOraImm (op8 : Byte) (s : State) : Outcome := accumulate (logical (· ||| ·)) (.immediate op8) s
def execOraZp (op8 : Byte) (s : State) : Outcome := accumulate (logical (· ||| ·)) (.zeroPage op8) s
def execOraZpX (op8 : Byte) (s : State) : Outcome := accumulate (logical (· ||| ·)) (.zeroPageX op8) s
def execOraAbs (op16 : Addr) (s : State) : Outcome := accumulate (logical (· ||| ·)) (.absolute op16) s
def execOraAbsX (op16 : Addr) (s : State) : Outcome := accumulate (logical (· ||| ·)) (.absoluteX op16) s
def execOraAbsY (op16 : Addr) (s : State) : Outcome := accumulate (logical (· ||| ·)) (.absoluteY op16) s
def execOraIndX (op8 : Byte) (s : State) : Outcome := accumulate (logical (· ||| ·)) (.indirectX op8) s
def execOraIndY (op8 : Byte) (s : State) : Outcome := accumulate (logical (· ||| ·)) (.indirectY op8) s

/-! EOR (R177). -/

def execEorImm (op8 : Byte) (s : State) : Outcome := accumulate (logical (· ^^^ ·)) (.immediate op8) s
def execEorZp (op8 : Byte) (s : State) : Outcome := accumulate (logical (· ^^^ ·)) (.zeroPage op8) s
def execEorZpX (op8 : Byte) (s : State) : Outcome := accumulate (logical (· ^^^ ·)) (.zeroPageX op8) s
def execEorAbs (op16 : Addr) (s : State) : Outcome := accumulate (logical (· ^^^ ·)) (.absolute op16) s
def execEorAbsX (op16 : Addr) (s : State) : Outcome := accumulate (logical (· ^^^ ·)) (.absoluteX op16) s
def execEorAbsY (op16 : Addr) (s : State) : Outcome := accumulate (logical (· ^^^ ·)) (.absoluteY op16) s
def execEorIndX (op8 : Byte) (s : State) : Outcome := accumulate (logical (· ^^^ ·)) (.indirectX op8) s
def execEorIndY (op8 : Byte) (s : State) : Outcome := accumulate (logical (· ^^^ ·)) (.indirectY op8) s

/-! CMP (R179). -/

def execCmpImm (op8 : Byte) (s : State) : Outcome := testFlags compareFlags .a (.immediate op8) s
def execCmpZp (op8 : Byte) (s : State) : Outcome := testFlags compareFlags .a (.zeroPage op8) s
def execCmpZpX (op8 : Byte) (s : State) : Outcome := testFlags compareFlags .a (.zeroPageX op8) s
def execCmpAbs (op16 : Addr) (s : State) : Outcome := testFlags compareFlags .a (.absolute op16) s
def execCmpAbsX (op16 : Addr) (s : State) : Outcome := testFlags compareFlags .a (.absoluteX op16) s
def execCmpAbsY (op16 : Addr) (s : State) : Outcome := testFlags compareFlags .a (.absoluteY op16) s
def execCmpIndX (op8 : Byte) (s : State) : Outcome := testFlags compareFlags .a (.indirectX op8) s
def execCmpIndY (op8 : Byte) (s : State) : Outcome := testFlags compareFlags .a (.indirectY op8) s

/-! CPX (R180). -/

def execCpxImm (op8 : Byte) (s : State) : Outcome := testFlags compareFlags .x (.immediate op8) s
def execCpxZp (op8 : Byte) (s : State) : Outcome := testFlags compareFlags .x (.zeroPage op8) s
def execCpxAbs (op16 : Addr) (s : State) : Outcome := testFlags compareFlags .x (.absolute op16) s

/-! CPY (R181). -/

def execCpyImm (op8 : Byte) (s : State) : Outcome := testFlags compareFlags .y (.immediate op8) s
def execCpyZp (op8 : Byte) (s : State) : Outcome := testFlags compareFlags .y (.zeroPage op8) s
def execCpyAbs (op16 : Addr) (s : State) : Outcome := testFlags compareFlags .y (.absolute op16) s

/-! BIT (R182). -/

def execBitZp (op8 : Byte) (s : State) : Outcome := testFlags bitTest .a (.zeroPage op8) s
def execBitAbs (op16 : Addr) (s : State) : Outcome := testFlags bitTest .a (.absolute op16) s

/-! INC (R183). -/

def execIncZp (op8 : Byte) (s : State) : Outcome := modify 0xE6 increment (.zeroPage op8) s
def execIncZpX (op8 : Byte) (s : State) : Outcome := modify 0xF6 increment (.zeroPageX op8) s
def execIncAbs (op16 : Addr) (s : State) : Outcome := modify 0xEE increment (.absolute op16) s
def execIncAbsX (op16 : Addr) (s : State) : Outcome := modify 0xFE increment (.absoluteX op16) s

/-! DEC (R184). -/

def execDecZp (op8 : Byte) (s : State) : Outcome := modify 0xC6 decrement (.zeroPage op8) s
def execDecZpX (op8 : Byte) (s : State) : Outcome := modify 0xD6 decrement (.zeroPageX op8) s
def execDecAbs (op16 : Addr) (s : State) : Outcome := modify 0xCE decrement (.absolute op16) s
def execDecAbsX (op16 : Addr) (s : State) : Outcome := modify 0xDE decrement (.absoluteX op16) s

/-! INX (R185). -/

def execInx (s : State) : Outcome := modifyReg increment .x s

/-! INY (R186). -/

def execIny (s : State) : Outcome := modifyReg increment .y s

/-! DEX (R187). -/

def execDex (s : State) : Outcome := modifyReg decrement .x s

/-! DEY (R188). -/

def execDey (s : State) : Outcome := modifyReg decrement .y s

end Sys2Proof.Machine
end

