-- ==== Sys2Proof/Machine/Control.lean ====
section
/-! DEFINITION. The meanings of the branches, jumps, subroutine call and return, interrupt return
(spec/43_control_transfer.md).
A meaning starts with PC at the first operand byte (spec/40_load_store_transfer.md R150). -/

namespace Sys2Proof.Machine

/-! BPL (R211). -/

def execBpl (op8 : Byte) (s : State) : Outcome := branch (!s.p.n) op8 s

/-! BMI (R212). -/

def execBmi (op8 : Byte) (s : State) : Outcome := branch s.p.n op8 s

/-! BVC (R213). -/

def execBvc (op8 : Byte) (s : State) : Outcome := branch (!s.p.v) op8 s

/-! BVS (R214). -/

def execBvs (op8 : Byte) (s : State) : Outcome := branch s.p.v op8 s

/-! BCC (R215). -/

def execBcc (op8 : Byte) (s : State) : Outcome := branch (!s.p.c) op8 s

/-! BCS (R216). -/

def execBcs (op8 : Byte) (s : State) : Outcome := branch s.p.c op8 s

/-! BNE (R217). -/

def execBne (op8 : Byte) (s : State) : Outcome := branch (!s.p.z) op8 s

/-! BEQ (R218). -/

def execBeq (op8 : Byte) (s : State) : Outcome := branch s.p.z op8 s

/-! JMP, absolute (R219) and indirect with its page defect (R220). -/

def execJmpAbs (op16 : Addr) (s : State) : Outcome := .next (s.setPc op16)
def execJmpInd (op16 : Addr) (s : State) : Outcome :=
  (busRead op16 s).andThen fun l s =>
  (busRead ((op16 &&& 0xFF00) ||| ((op16 + 1) &&& 0x00FF)) s).andThen fun h s =>
  .next (s.setPc (word h l))

/-! JSR (R221): PC is at the first operand byte, so PC + 1 is the address of the last one. -/

def execJsr (op16 : Addr) (s : State) : Outcome :=
  .next ((pushWord (s.pc + 1) s).setPc op16)

/-! RTS (R222). -/

def execRts (s : State) : Outcome :=
  let w := pullWord s
  .next (w.2.setPc (w.1 + 1))

/-! RTI (R223). -/

def execRti (s : State) : Outcome := .next (returnFromInterrupt s)

end Sys2Proof.Machine
end

