-- ==== Sys2Proof/Machine/LoadStore.lean ====
section
/-! DEFINITION. The meanings of the loads, stores and transfers (spec/40_load_store_transfer.md).
A meaning starts with PC at the first operand byte (spec/40_load_store_transfer.md R150). -/

namespace Sys2Proof.Machine

/-! LDA (R151). -/

def execLdaImm (op8 : Byte) (s : State) : Outcome := load .a (.immediate op8) s
def execLdaZp (op8 : Byte) (s : State) : Outcome := load .a (.zeroPage op8) s
def execLdaZpX (op8 : Byte) (s : State) : Outcome := load .a (.zeroPageX op8) s
def execLdaAbs (op16 : Addr) (s : State) : Outcome := load .a (.absolute op16) s
def execLdaAbsX (op16 : Addr) (s : State) : Outcome := load .a (.absoluteX op16) s
def execLdaAbsY (op16 : Addr) (s : State) : Outcome := load .a (.absoluteY op16) s
def execLdaIndX (op8 : Byte) (s : State) : Outcome := load .a (.indirectX op8) s
def execLdaIndY (op8 : Byte) (s : State) : Outcome := load .a (.indirectY op8) s

/-! LDX (R152). -/

def execLdxImm (op8 : Byte) (s : State) : Outcome := load .x (.immediate op8) s
def execLdxZp (op8 : Byte) (s : State) : Outcome := load .x (.zeroPage op8) s
def execLdxZpY (op8 : Byte) (s : State) : Outcome := load .x (.zeroPageY op8) s
def execLdxAbs (op16 : Addr) (s : State) : Outcome := load .x (.absolute op16) s
def execLdxAbsY (op16 : Addr) (s : State) : Outcome := load .x (.absoluteY op16) s

/-! LDY (R153). -/

def execLdyImm (op8 : Byte) (s : State) : Outcome := load .y (.immediate op8) s
def execLdyZp (op8 : Byte) (s : State) : Outcome := load .y (.zeroPage op8) s
def execLdyZpX (op8 : Byte) (s : State) : Outcome := load .y (.zeroPageX op8) s
def execLdyAbs (op16 : Addr) (s : State) : Outcome := load .y (.absolute op16) s
def execLdyAbsX (op16 : Addr) (s : State) : Outcome := load .y (.absoluteX op16) s

/-! STA (R154). -/

def execStaZp (op8 : Byte) (s : State) : Outcome := store 0x85 .a (.zeroPage op8) s
def execStaZpX (op8 : Byte) (s : State) : Outcome := store 0x95 .a (.zeroPageX op8) s
def execStaAbs (op16 : Addr) (s : State) : Outcome := store 0x8D .a (.absolute op16) s
def execStaAbsX (op16 : Addr) (s : State) : Outcome := store 0x9D .a (.absoluteX op16) s
def execStaAbsY (op16 : Addr) (s : State) : Outcome := store 0x99 .a (.absoluteY op16) s
def execStaIndX (op8 : Byte) (s : State) : Outcome := store 0x81 .a (.indirectX op8) s
def execStaIndY (op8 : Byte) (s : State) : Outcome := store 0x91 .a (.indirectY op8) s

/-! STX (R155). -/

def execStxZp (op8 : Byte) (s : State) : Outcome := store 0x86 .x (.zeroPage op8) s
def execStxZpY (op8 : Byte) (s : State) : Outcome := store 0x96 .x (.zeroPageY op8) s
def execStxAbs (op16 : Addr) (s : State) : Outcome := store 0x8E .x (.absolute op16) s

/-! STY (R156). -/

def execStyZp (op8 : Byte) (s : State) : Outcome := store 0x84 .y (.zeroPage op8) s
def execStyZpX (op8 : Byte) (s : State) : Outcome := store 0x94 .y (.zeroPageX op8) s
def execStyAbs (op16 : Addr) (s : State) : Outcome := store 0x8C .y (.absolute op16) s

/-! TAX (R157). -/

def execTax (s : State) : Outcome := transfer .x s.a s

/-! TAY (R158). -/

def execTay (s : State) : Outcome := transfer .y s.a s

/-! TXA (R159). -/

def execTxa (s : State) : Outcome := transfer .a s.x s

/-! TYA (R160). -/

def execTya (s : State) : Outcome := transfer .a s.y s

/-! TSX (R161). -/

def execTsx (s : State) : Outcome := transfer .x s.sp s

/-! TXS (R162): the one transfer that sets no flags. -/

def execTxs (s : State) : Outcome := .next (s.setSp s.x)

end Sys2Proof.Machine
end

