-- ==== Sys2Proof/Machine/Shift.lean ====
section
/-! DEFINITION. The meanings of the shifts and rotates (spec/42_shift_rotate.md).
A meaning starts with PC at the first operand byte (spec/40_load_store_transfer.md R150). -/

namespace Sys2Proof.Machine

/-! ASL (R201). -/

def execAslA (s : State) : Outcome := modify 0x0A shiftLeft .accumulator s
def execAslZp (op8 : Byte) (s : State) : Outcome := modify 0x06 shiftLeft (.zeroPage op8) s
def execAslZpX (op8 : Byte) (s : State) : Outcome := modify 0x16 shiftLeft (.zeroPageX op8) s
def execAslAbs (op16 : Addr) (s : State) : Outcome := modify 0x0E shiftLeft (.absolute op16) s
def execAslAbsX (op16 : Addr) (s : State) : Outcome := modify 0x1E shiftLeft (.absoluteX op16) s

/-! LSR (R202). -/

def execLsrA (s : State) : Outcome := modify 0x4A shiftRight .accumulator s
def execLsrZp (op8 : Byte) (s : State) : Outcome := modify 0x46 shiftRight (.zeroPage op8) s
def execLsrZpX (op8 : Byte) (s : State) : Outcome := modify 0x56 shiftRight (.zeroPageX op8) s
def execLsrAbs (op16 : Addr) (s : State) : Outcome := modify 0x4E shiftRight (.absolute op16) s
def execLsrAbsX (op16 : Addr) (s : State) : Outcome := modify 0x5E shiftRight (.absoluteX op16) s

/-! ROL (R203). -/

def execRolA (s : State) : Outcome := modify 0x2A rotateLeft .accumulator s
def execRolZp (op8 : Byte) (s : State) : Outcome := modify 0x26 rotateLeft (.zeroPage op8) s
def execRolZpX (op8 : Byte) (s : State) : Outcome := modify 0x36 rotateLeft (.zeroPageX op8) s
def execRolAbs (op16 : Addr) (s : State) : Outcome := modify 0x2E rotateLeft (.absolute op16) s
def execRolAbsX (op16 : Addr) (s : State) : Outcome := modify 0x3E rotateLeft (.absoluteX op16) s

/-! ROR (R204). -/

def execRorA (s : State) : Outcome := modify 0x6A rotateRight .accumulator s
def execRorZp (op8 : Byte) (s : State) : Outcome := modify 0x66 rotateRight (.zeroPage op8) s
def execRorZpX (op8 : Byte) (s : State) : Outcome := modify 0x76 rotateRight (.zeroPageX op8) s
def execRorAbs (op16 : Addr) (s : State) : Outcome := modify 0x6E rotateRight (.absolute op16) s
def execRorAbsX (op16 : Addr) (s : State) : Outcome := modify 0x7E rotateRight (.absoluteX op16) s

end Sys2Proof.Machine
end

