-- ==== Sys2Proof/Machine/Stack.lean ====
section
/-! DEFINITION. The meanings of the stack, flag and no-operation instructions (spec/44_stack_flags_misc.md).
A meaning starts with PC at the first operand byte (spec/40_load_store_transfer.md R150). -/

namespace Sys2Proof.Machine

/-! PHA (R231). -/

def execPha (s : State) : Outcome := .next (push s.a s)

/-! PHP (R232). -/

def execPhp (s : State) : Outcome := .next (push (s.p.toByte true) s)

/-! PLA (R233). -/

def execPla (s : State) : Outcome :=
  let v := pull s
  transfer .a v.1 v.2

/-! PLP (R234). -/

def execPlp (s : State) : Outcome :=
  let v := pull s
  .next (v.2.setP (Flags.ofByte v.1))

/-! CLC (R235). -/

def execClc (s : State) : Outcome := setFlags (fun p => { p with c := false }) s

/-! SEC (R236). -/

def execSec (s : State) : Outcome := setFlags (fun p => { p with c := true }) s

/-! CLI (R237). -/

def execCli (s : State) : Outcome := setFlags (fun p => { p with i := false }) s

/-! SEI (R238). -/

def execSei (s : State) : Outcome := setFlags (fun p => { p with i := true }) s

/-! CLV (R239). -/

def execClv (s : State) : Outcome := setFlags (fun p => { p with v := false }) s

/-! CLD (R240). -/

def execCld (s : State) : Outcome := setFlags (fun p => { p with d := false }) s

/-! SED (R241). -/

def execSed (s : State) : Outcome := setFlags (fun p => { p with d := true }) s

/-! NOP (R242). -/

def execNop (s : State) : Outcome := .next s

/-! NOP* (R243): the operand bytes are skipped, with no bus access. -/

def execNopU1A (s : State) : Outcome := .next s
def execNopU3A (s : State) : Outcome := .next s
def execNopU5A (s : State) : Outcome := .next s
def execNopU7A (s : State) : Outcome := .next s
def execNopUDA (s : State) : Outcome := .next s
def execNopUFA (s : State) : Outcome := .next s
def execNopU80 (op8 : Byte) (s : State) : Outcome := .next (advance (.immediate op8) s)
def execNopU82 (op8 : Byte) (s : State) : Outcome := .next (advance (.immediate op8) s)
def execNopU89 (op8 : Byte) (s : State) : Outcome := .next (advance (.immediate op8) s)
def execNopUC2 (op8 : Byte) (s : State) : Outcome := .next (advance (.immediate op8) s)
def execNopUE2 (op8 : Byte) (s : State) : Outcome := .next (advance (.immediate op8) s)
def execNopU04 (op8 : Byte) (s : State) : Outcome := .next (advance (.zeroPage op8) s)
def execNopU44 (op8 : Byte) (s : State) : Outcome := .next (advance (.zeroPage op8) s)
def execNopU64 (op8 : Byte) (s : State) : Outcome := .next (advance (.zeroPage op8) s)
def execNopU14 (op8 : Byte) (s : State) : Outcome := .next (advance (.zeroPageX op8) s)
def execNopU34 (op8 : Byte) (s : State) : Outcome := .next (advance (.zeroPageX op8) s)
def execNopU54 (op8 : Byte) (s : State) : Outcome := .next (advance (.zeroPageX op8) s)
def execNopU74 (op8 : Byte) (s : State) : Outcome := .next (advance (.zeroPageX op8) s)
def execNopUD4 (op8 : Byte) (s : State) : Outcome := .next (advance (.zeroPageX op8) s)
def execNopUF4 (op8 : Byte) (s : State) : Outcome := .next (advance (.zeroPageX op8) s)
def execNopU0C (op16 : Addr) (s : State) : Outcome := .next (advance (.absolute op16) s)
def execNopU1C (op16 : Addr) (s : State) : Outcome := .next (advance (.absoluteX op16) s)
def execNopU3C (op16 : Addr) (s : State) : Outcome := .next (advance (.absoluteX op16) s)
def execNopU5C (op16 : Addr) (s : State) : Outcome := .next (advance (.absoluteX op16) s)
def execNopU7C (op16 : Addr) (s : State) : Outcome := .next (advance (.absoluteX op16) s)
def execNopUDC (op16 : Addr) (s : State) : Outcome := .next (advance (.absoluteX op16) s)
def execNopUFC (op16 : Addr) (s : State) : Outcome := .next (advance (.absoluteX op16) s)

end Sys2Proof.Machine
end

