-- ==== Sys2Proof/Machine/Dispatch.lean ====
section
/-! DEFINITION. The dispatch of every instruction to its meaning. -/

namespace Sys2Proof.Machine

def exec (i : Instr) (s : State) : Host.Outcome State Fault Refusal :=
  match i with
  -- LDA (R151)
  | .ldaImm op8 => Sys2Proof.Machine.execLdaImm op8 s
  | .ldaZp op8 => Sys2Proof.Machine.execLdaZp op8 s
  | .ldaZpX op8 => Sys2Proof.Machine.execLdaZpX op8 s
  | .ldaAbs op16 => Sys2Proof.Machine.execLdaAbs op16 s
  | .ldaAbsX op16 => Sys2Proof.Machine.execLdaAbsX op16 s
  | .ldaAbsY op16 => Sys2Proof.Machine.execLdaAbsY op16 s
  | .ldaIndX op8 => Sys2Proof.Machine.execLdaIndX op8 s
  | .ldaIndY op8 => Sys2Proof.Machine.execLdaIndY op8 s
  -- LDX (R152)
  | .ldxImm op8 => Sys2Proof.Machine.execLdxImm op8 s
  | .ldxZp op8 => Sys2Proof.Machine.execLdxZp op8 s
  | .ldxZpY op8 => Sys2Proof.Machine.execLdxZpY op8 s
  | .ldxAbs op16 => Sys2Proof.Machine.execLdxAbs op16 s
  | .ldxAbsY op16 => Sys2Proof.Machine.execLdxAbsY op16 s
  -- LDY (R153)
  | .ldyImm op8 => Sys2Proof.Machine.execLdyImm op8 s
  | .ldyZp op8 => Sys2Proof.Machine.execLdyZp op8 s
  | .ldyZpX op8 => Sys2Proof.Machine.execLdyZpX op8 s
  | .ldyAbs op16 => Sys2Proof.Machine.execLdyAbs op16 s
  | .ldyAbsX op16 => Sys2Proof.Machine.execLdyAbsX op16 s
  -- STA (R154)
  | .staZp op8 => Sys2Proof.Machine.execStaZp op8 s
  | .staZpX op8 => Sys2Proof.Machine.execStaZpX op8 s
  | .staAbs op16 => Sys2Proof.Machine.execStaAbs op16 s
  | .staAbsX op16 => Sys2Proof.Machine.execStaAbsX op16 s
  | .staAbsY op16 => Sys2Proof.Machine.execStaAbsY op16 s
  | .staIndX op8 => Sys2Proof.Machine.execStaIndX op8 s
  | .staIndY op8 => Sys2Proof.Machine.execStaIndY op8 s
  -- STX (R155)
  | .stxZp op8 => Sys2Proof.Machine.execStxZp op8 s
  | .stxZpY op8 => Sys2Proof.Machine.execStxZpY op8 s
  | .stxAbs op16 => Sys2Proof.Machine.execStxAbs op16 s
  -- STY (R156)
  | .styZp op8 => Sys2Proof.Machine.execStyZp op8 s
  | .styZpX op8 => Sys2Proof.Machine.execStyZpX op8 s
  | .styAbs op16 => Sys2Proof.Machine.execStyAbs op16 s
  -- TAX (R157)
  | .tax => Sys2Proof.Machine.execTax s
  -- TAY (R158)
  | .tay => Sys2Proof.Machine.execTay s
  -- TXA (R159)
  | .txa => Sys2Proof.Machine.execTxa s
  -- TYA (R160)
  | .tya => Sys2Proof.Machine.execTya s
  -- TSX (R161)
  | .tsx => Sys2Proof.Machine.execTsx s
  -- TXS (R162)
  | .txs => Sys2Proof.Machine.execTxs s
  -- ADC (R173)
  | .adcImm op8 => Sys2Proof.Machine.execAdcImm op8 s
  | .adcZp op8 => Sys2Proof.Machine.execAdcZp op8 s
  | .adcZpX op8 => Sys2Proof.Machine.execAdcZpX op8 s
  | .adcAbs op16 => Sys2Proof.Machine.execAdcAbs op16 s
  | .adcAbsX op16 => Sys2Proof.Machine.execAdcAbsX op16 s
  | .adcAbsY op16 => Sys2Proof.Machine.execAdcAbsY op16 s
  | .adcIndX op8 => Sys2Proof.Machine.execAdcIndX op8 s
  | .adcIndY op8 => Sys2Proof.Machine.execAdcIndY op8 s
  -- SBC (R174)
  | .sbcImm op8 => Sys2Proof.Machine.execSbcImm op8 s
  | .sbcZp op8 => Sys2Proof.Machine.execSbcZp op8 s
  | .sbcZpX op8 => Sys2Proof.Machine.execSbcZpX op8 s
  | .sbcAbs op16 => Sys2Proof.Machine.execSbcAbs op16 s
  | .sbcAbsX op16 => Sys2Proof.Machine.execSbcAbsX op16 s
  | .sbcAbsY op16 => Sys2Proof.Machine.execSbcAbsY op16 s
  | .sbcIndX op8 => Sys2Proof.Machine.execSbcIndX op8 s
  | .sbcIndY op8 => Sys2Proof.Machine.execSbcIndY op8 s
  -- AND (R175)
  | .andImm op8 => Sys2Proof.Machine.execAndImm op8 s
  | .andZp op8 => Sys2Proof.Machine.execAndZp op8 s
  | .andZpX op8 => Sys2Proof.Machine.execAndZpX op8 s
  | .andAbs op16 => Sys2Proof.Machine.execAndAbs op16 s
  | .andAbsX op16 => Sys2Proof.Machine.execAndAbsX op16 s
  | .andAbsY op16 => Sys2Proof.Machine.execAndAbsY op16 s
  | .andIndX op8 => Sys2Proof.Machine.execAndIndX op8 s
  | .andIndY op8 => Sys2Proof.Machine.execAndIndY op8 s
  -- ORA (R176)
  | .oraImm op8 => Sys2Proof.Machine.execOraImm op8 s
  | .oraZp op8 => Sys2Proof.Machine.execOraZp op8 s
  | .oraZpX op8 => Sys2Proof.Machine.execOraZpX op8 s
  | .oraAbs op16 => Sys2Proof.Machine.execOraAbs op16 s
  | .oraAbsX op16 => Sys2Proof.Machine.execOraAbsX op16 s
  | .oraAbsY op16 => Sys2Proof.Machine.execOraAbsY op16 s
  | .oraIndX op8 => Sys2Proof.Machine.execOraIndX op8 s
  | .oraIndY op8 => Sys2Proof.Machine.execOraIndY op8 s
  -- EOR (R177)
  | .eorImm op8 => Sys2Proof.Machine.execEorImm op8 s
  | .eorZp op8 => Sys2Proof.Machine.execEorZp op8 s
  | .eorZpX op8 => Sys2Proof.Machine.execEorZpX op8 s
  | .eorAbs op16 => Sys2Proof.Machine.execEorAbs op16 s
  | .eorAbsX op16 => Sys2Proof.Machine.execEorAbsX op16 s
  | .eorAbsY op16 => Sys2Proof.Machine.execEorAbsY op16 s
  | .eorIndX op8 => Sys2Proof.Machine.execEorIndX op8 s
  | .eorIndY op8 => Sys2Proof.Machine.execEorIndY op8 s
  -- CMP (R179)
  | .cmpImm op8 => Sys2Proof.Machine.execCmpImm op8 s
  | .cmpZp op8 => Sys2Proof.Machine.execCmpZp op8 s
  | .cmpZpX op8 => Sys2Proof.Machine.execCmpZpX op8 s
  | .cmpAbs op16 => Sys2Proof.Machine.execCmpAbs op16 s
  | .cmpAbsX op16 => Sys2Proof.Machine.execCmpAbsX op16 s
  | .cmpAbsY op16 => Sys2Proof.Machine.execCmpAbsY op16 s
  | .cmpIndX op8 => Sys2Proof.Machine.execCmpIndX op8 s
  | .cmpIndY op8 => Sys2Proof.Machine.execCmpIndY op8 s
  -- CPX (R180)
  | .cpxImm op8 => Sys2Proof.Machine.execCpxImm op8 s
  | .cpxZp op8 => Sys2Proof.Machine.execCpxZp op8 s
  | .cpxAbs op16 => Sys2Proof.Machine.execCpxAbs op16 s
  -- CPY (R181)
  | .cpyImm op8 => Sys2Proof.Machine.execCpyImm op8 s
  | .cpyZp op8 => Sys2Proof.Machine.execCpyZp op8 s
  | .cpyAbs op16 => Sys2Proof.Machine.execCpyAbs op16 s
  -- BIT (R182)
  | .bitZp op8 => Sys2Proof.Machine.execBitZp op8 s
  | .bitAbs op16 => Sys2Proof.Machine.execBitAbs op16 s
  -- INC (R183)
  | .incZp op8 => Sys2Proof.Machine.execIncZp op8 s
  | .incZpX op8 => Sys2Proof.Machine.execIncZpX op8 s
  | .incAbs op16 => Sys2Proof.Machine.execIncAbs op16 s
  | .incAbsX op16 => Sys2Proof.Machine.execIncAbsX op16 s
  -- DEC (R184)
  | .decZp op8 => Sys2Proof.Machine.execDecZp op8 s
  | .decZpX op8 => Sys2Proof.Machine.execDecZpX op8 s
  | .decAbs op16 => Sys2Proof.Machine.execDecAbs op16 s
  | .decAbsX op16 => Sys2Proof.Machine.execDecAbsX op16 s
  -- INX (R185)
  | .inx => Sys2Proof.Machine.execInx s
  -- INY (R186)
  | .iny => Sys2Proof.Machine.execIny s
  -- DEX (R187)
  | .dex => Sys2Proof.Machine.execDex s
  -- DEY (R188)
  | .dey => Sys2Proof.Machine.execDey s
  -- ASL (R201)
  | .aslA => Sys2Proof.Machine.execAslA s
  | .aslZp op8 => Sys2Proof.Machine.execAslZp op8 s
  | .aslZpX op8 => Sys2Proof.Machine.execAslZpX op8 s
  | .aslAbs op16 => Sys2Proof.Machine.execAslAbs op16 s
  | .aslAbsX op16 => Sys2Proof.Machine.execAslAbsX op16 s
  -- LSR (R202)
  | .lsrA => Sys2Proof.Machine.execLsrA s
  | .lsrZp op8 => Sys2Proof.Machine.execLsrZp op8 s
  | .lsrZpX op8 => Sys2Proof.Machine.execLsrZpX op8 s
  | .lsrAbs op16 => Sys2Proof.Machine.execLsrAbs op16 s
  | .lsrAbsX op16 => Sys2Proof.Machine.execLsrAbsX op16 s
  -- ROL (R203)
  | .rolA => Sys2Proof.Machine.execRolA s
  | .rolZp op8 => Sys2Proof.Machine.execRolZp op8 s
  | .rolZpX op8 => Sys2Proof.Machine.execRolZpX op8 s
  | .rolAbs op16 => Sys2Proof.Machine.execRolAbs op16 s
  | .rolAbsX op16 => Sys2Proof.Machine.execRolAbsX op16 s
  -- ROR (R204)
  | .rorA => Sys2Proof.Machine.execRorA s
  | .rorZp op8 => Sys2Proof.Machine.execRorZp op8 s
  | .rorZpX op8 => Sys2Proof.Machine.execRorZpX op8 s
  | .rorAbs op16 => Sys2Proof.Machine.execRorAbs op16 s
  | .rorAbsX op16 => Sys2Proof.Machine.execRorAbsX op16 s
  -- BPL (R211)
  | .bpl op8 => Sys2Proof.Machine.execBpl op8 s
  -- BMI (R212)
  | .bmi op8 => Sys2Proof.Machine.execBmi op8 s
  -- BVC (R213)
  | .bvc op8 => Sys2Proof.Machine.execBvc op8 s
  -- BVS (R214)
  | .bvs op8 => Sys2Proof.Machine.execBvs op8 s
  -- BCC (R215)
  | .bcc op8 => Sys2Proof.Machine.execBcc op8 s
  -- BCS (R216)
  | .bcs op8 => Sys2Proof.Machine.execBcs op8 s
  -- BNE (R217)
  | .bne op8 => Sys2Proof.Machine.execBne op8 s
  -- BEQ (R218)
  | .beq op8 => Sys2Proof.Machine.execBeq op8 s
  -- JMP (R219)
  | .jmpAbs op16 => Sys2Proof.Machine.execJmpAbs op16 s
  | .jmpInd op16 => Sys2Proof.Machine.execJmpInd op16 s
  -- JSR (R221)
  | .jsr op16 => Sys2Proof.Machine.execJsr op16 s
  -- RTS (R222)
  | .rts => Sys2Proof.Machine.execRts s
  -- RTI (R223)
  | .rti => Sys2Proof.Machine.execRti s
  -- PHA (R231)
  | .pha => Sys2Proof.Machine.execPha s
  -- PHP (R232)
  | .php => Sys2Proof.Machine.execPhp s
  -- PLA (R233)
  | .pla => Sys2Proof.Machine.execPla s
  -- PLP (R234)
  | .plp => Sys2Proof.Machine.execPlp s
  -- CLC (R235)
  | .clc => Sys2Proof.Machine.execClc s
  -- SEC (R236)
  | .sec => Sys2Proof.Machine.execSec s
  -- CLI (R237)
  | .cli => Sys2Proof.Machine.execCli s
  -- SEI (R238)
  | .sei => Sys2Proof.Machine.execSei s
  -- CLV (R239)
  | .clv => Sys2Proof.Machine.execClv s
  -- CLD (R240)
  | .cld => Sys2Proof.Machine.execCld s
  -- SED (R241)
  | .sed => Sys2Proof.Machine.execSed s
  -- NOP (R242)
  | .nop => Sys2Proof.Machine.execNop s
  -- NOP* (R243)
  | .nopU1A => Sys2Proof.Machine.execNopU1A s
  | .nopU3A => Sys2Proof.Machine.execNopU3A s
  | .nopU5A => Sys2Proof.Machine.execNopU5A s
  | .nopU7A => Sys2Proof.Machine.execNopU7A s
  | .nopUDA => Sys2Proof.Machine.execNopUDA s
  | .nopUFA => Sys2Proof.Machine.execNopUFA s
  | .nopU80 op8 => Sys2Proof.Machine.execNopU80 op8 s
  | .nopU82 op8 => Sys2Proof.Machine.execNopU82 op8 s
  | .nopU89 op8 => Sys2Proof.Machine.execNopU89 op8 s
  | .nopUC2 op8 => Sys2Proof.Machine.execNopUC2 op8 s
  | .nopUE2 op8 => Sys2Proof.Machine.execNopUE2 op8 s
  | .nopU04 op8 => Sys2Proof.Machine.execNopU04 op8 s
  | .nopU44 op8 => Sys2Proof.Machine.execNopU44 op8 s
  | .nopU64 op8 => Sys2Proof.Machine.execNopU64 op8 s
  | .nopU14 op8 => Sys2Proof.Machine.execNopU14 op8 s
  | .nopU34 op8 => Sys2Proof.Machine.execNopU34 op8 s
  | .nopU54 op8 => Sys2Proof.Machine.execNopU54 op8 s
  | .nopU74 op8 => Sys2Proof.Machine.execNopU74 op8 s
  | .nopUD4 op8 => Sys2Proof.Machine.execNopUD4 op8 s
  | .nopUF4 op8 => Sys2Proof.Machine.execNopUF4 op8 s
  | .nopU0C op16 => Sys2Proof.Machine.execNopU0C op16 s
  | .nopU1C op16 => Sys2Proof.Machine.execNopU1C op16 s
  | .nopU3C op16 => Sys2Proof.Machine.execNopU3C op16 s
  | .nopU5C op16 => Sys2Proof.Machine.execNopU5C op16 s
  | .nopU7C op16 => Sys2Proof.Machine.execNopU7C op16 s
  | .nopUDC op16 => Sys2Proof.Machine.execNopUDC op16 s
  | .nopUFC op16 => Sys2Proof.Machine.execNopUFC op16 s

end Sys2Proof.Machine
end

