-- ==== Sys2Proof/WellFormed.lean ====
section
/-! DEFINITION. When an instruction term is one the machine admits. Operand widths are in the types
of the constructors, so the one check is that an undocumented no-operation is in `ILLEGAL_NOPS`
(spec/30_encoding.md R140, R141). -/

namespace Sys2Proof

/-- The opcode is in the dispatch table under the parameters `p`: it is no undocumented NOP, or it
is one of `ILLEGAL_NOPS` (R140). -/
def Params.admits (p : Params) (opcode : Byte) : Bool :=
  !undocumentedNops.contains opcode || p.illegalNops.contains opcode

/-- An instruction the machine with parameters `p` has in its dispatch table. -/
def Instr.wellFormed (p : Params) (i : Instr) : Bool :=
  p.admits i.info.opcode

end Sys2Proof
end

