-- ==== Sys2Proof/Machine/Fetch.lean ====
section
/-! DEFINITION. Fetching an instruction through the bus (spec/30_encoding.md R121, R124, R141;
spec/20_memory.md R99). -/

namespace Sys2Proof.Machine

/-- The dispatch entry of an opcode under the machine's parameters (R139-R141). -/
def entryOf (params : Params) (opcode : Byte) : Option Entry :=
  if params.admits opcode then dispatch opcode else none

/-- The operand of an entry, read with PC at the first operand byte: `op8` is `MemRead(PC, 1)` and
`op16` is `MemRead(PC, 2)` (R124). The bytes of a NOP* are not read (R243, log entry 11). -/
def fetchOperand (e : Entry) (s : State) : Access Instr :=
  match e with
  | .f1 i => .done i s
  | .f2 make => (busRead s.pc s).bind fun b s => .done (make b) s
  | .f3 make => (busRead16 s.pc s).bind fun w s => .done (make w) s
  | .skip2 make => .done (make 0) s
  | .skip3 make => .done (make 0) s

/-- The opcode fetch, the dispatch check and the operand fetch; PC is left at the first operand byte
(R121, R141, R251). -/
def fetch (s : State) : Access Instr :=
  (busRead s.pc s).bind fun opcode s =>
  let s := s.setPc (s.pc + 1)
  match entryOf s.params opcode with
  | none => .raised (raise (.unimplementedOpcode opcode s.instrCount) s)
  | some e => fetchOperand e s

end Sys2Proof.Machine
end

