-- ==== Sys2Proof/Machine/Clock.lean ====
section
/-! DEFINITION. The CPU step, the external units' steps and the master tick (spec/60_exceptions.md
sections 2, 3 and 4). -/

namespace Sys2Proof.Machine

/-- The NMI sample at an instruction boundary and the entry if it fires (R261, R262, R271). -/
def takeNmi (s : State) : State :=
  let r := nmiSample s
  if r.1 then nmiEntry r.2 else r.2

/-- `RELOAD_BIAS` as a number (R271). -/
def biasValue : ReloadBias → Int
  | .zero => 0
  | .minusOne => -1

/-- `max(0, cycles + extra_cycles + RELOAD_BIAS)` (R271). -/
def reloadValue (params : Params) (cycles extra : Nat) : Nat :=
  ((cycles : Int) + extra + biasValue params.reloadBias).toNat

/-- The completion of an instruction of `cycles` base cycles: it is counted, the remaining-cycle
counter is reloaded, the stall is read and cleared (R271, R32). -/
def complete (cycles : Nat) (s : State) : State :=
  { s with
    instrCount := s.instrCount + 1
    cyclesRemaining := reloadValue s.params cycles s.extraCycles
    extraCycles := 0 }

/-- An instruction executed and completed; a fault leaves it incomplete (R256, R271). -/
def execute (i : Instr) (s : State) : Outcome :=
  match exec i s with
  | .next t => .next (complete i.info.cycles t)
  | .fault f => .fault f
  | .refused r => .refused r

/-- `CpuStep()` (R271). -/
def cpuStep (s : State) : Outcome :=
  if 0 < s.cyclesRemaining then .next { s with cyclesRemaining := s.cyclesRemaining - 1 }
  else (fetch (takeNmi s)).andThen execute

/-- What the video unit sees (spec/20_memory.md R105). -/
def State.videoView (s : State) : VideoView where
  ctrl := s.ppu.ctrl
  mask := s.ppu.mask
  status := s.ppu.status
  oamAddr := s.ppu.oamAddr
  vramAddr := s.ppu.vramAddr
  addrToggle := s.ppu.addrToggle
  readBuffer := s.ppu.readBuffer
  scroll0 := s.ppu.scroll0
  scroll1 := s.ppu.scroll1
  scrollToggle := s.ppu.scrollToggle
  oam := s.ppu.oam
  nt := s.ppu.nt
  pal := s.ppu.pal
  chrRam := s.ppu.chrRam
  chr := s.cart.chr
  chrBanks := s.cart.chrBanks
  mirroring := s.cart.mirroring

/-- `VideoStep()` (R275): PPUSTATUS and the unit's private state, nothing else. -/
def videoStep (s : State) : State :=
  let r := Config.videoStep s.video s.videoView
  { s with ppu := { s.ppu with status := r.1 }, video := r.2 }

/-- What the audio unit sees (spec/20_memory.md R106). -/
def State.audioView (s : State) : AudioView where
  bank := s.apu.bank
  reloadLinear := s.apu.reloadLinear
  reloadNoise := s.apu.reloadNoise

/-- `AudioStep()` (R276): the unit may clear the reload flags, nothing else. -/
def audioStep (s : State) : State :=
  let r := Config.audioStep s.audio s.audioView
  { s with
    apu :=
      { s.apu with
        reloadLinear := s.apu.reloadLinear && !r.clearLinear
        reloadNoise := s.apu.reloadNoise && !r.clearNoise }
    audio := r.next }

/-- The end of a tick (R270). -/
def nextTick (s : State) : State := { s with tick := s.tick + 1 }

/-- The CPU and audio part of a tick that is a multiple of 3; a fault abandons the tick (R270). -/
def cpuTick (s : State) : Outcome :=
  match cpuStep s with
  | .next t => .next (nextTick (audioStep t))
  | .fault f => .fault f
  | .refused r => .refused r

/-- `Tick()` (R270): nothing on a halted machine; otherwise the video step, and on every third tick
the CPU step and the audio step. -/
def tick (s : State) : Outcome :=
  match s.halted with
  | some _ => .next s
  | none =>
    let s := videoStep s
    if s.tick % 3 = 0 then cpuTick s else .next (nextTick s)

/-- `RunTicks(n)` (R277, R278): it stops at the first tick that faults. -/
def runTicks : Nat → State → Outcome
  | 0, s => .next s
  | n + 1, s =>
    match tick s with
    | .next t => runTicks n t
    | .fault f => .fault f
    | .refused r => .refused r

end Sys2Proof.Machine
end

