-- ==== Sys2Proof/Machine/Place.lean ====
section
/-! DEFINITION. Placing an instruction where the machine fetches its next one (log entry 13). -/

namespace Sys2Proof.Machine

/-- A byte of RAM or of the mapped PRG image becomes `v`; none where no stored byte backs the address. -/
def poke (a : Addr) (v : Byte) (s : State) : Option State :=
  if a.toNat < 0x2000 then some (ramWrite a v s)
  else if a.toNat < 0x8000 then none
  else
    match s.mapper with
    | .unsupported _ => none
    | _ =>
      (prgIndex s.cart s.params a).map fun i =>
        { s with cart := { s.cart with prg := Memory.write s.cart.prg i v } }

/-- Three bytes placed from `a` on. -/
def poke3 (a : Addr) (b0 b1 b2 : Byte) (s : State) : Option State :=
  (poke a b0 s).bind fun s => (poke (a + 1) b1 s).bind fun s => poke (a + 2) b2 s

/-- The state made ready to start an instruction in its next tick, with no NMI due at the boundary. -/
def atBoundary (s : State) : State :=
  { s with
    halted := none
    cyclesRemaining := 0
    nmiPrev := s.nmiPrev || bit s.ppu.ctrl 7
    tick := s.tick + (3 - s.tick % 3) % 3 }

/-- Three bytes placed at PC, or, where no stored bytes back PC, at $0000 with PC moved there. -/
def placeAtPc (b0 b1 b2 : Byte) (s : State) : State :=
  match poke3 s.pc b0 b1 b2 s with
  | some t => t
  | none => (ramWrite 2 b2 (ramWrite 1 b1 (ramWrite 0 b0 s))).setPc 0

end Sys2Proof.Machine
end

