-- ==== Sys2Proof/Machine/Session.lean ====
section
/-! DEFINITION. The start of a session: `Load` and `Reset` (spec/60_exceptions.md R279,
spec/70_reset_and_hazards.md R290). -/

namespace Sys2Proof.Machine

/-- What the spec leaves unspecified at reset (R291, D7), and the model's own indices of its free
values (log entries 5 to 8). -/
structure ResetValues where
  /-- `RESET_A` -/
  a : Byte
  /-- `RESET_X` -/
  x : Byte
  /-- `RESET_Y` -/
  y : Byte
  /-- `RESET_SP` -/
  sp : Byte
  /-- `RESET_P` -/
  p : Byte
  /-- `RAM_INIT` -/
  ram : Memory
  /-- `OAM_INIT` -/
  oam : Memory
  /-- `VRAM_INIT` for NT, PAL and CHRRAM -/
  nt : Memory
  pal : Memory
  chrRam : Memory
  draws : Nat
  buttonDraws : Nat
  video : Nat
  audio : Nat
  deriving DecidableEq, Repr

/-- The values `State.reset` names (log entries 2, 3, 5, 6, 7 and 8). -/
def ResetValues.zero : ResetValues where
  a := 0
  x := 0
  y := 0
  sp := 0
  p := 0
  ram := []
  oam := []
  nt := []
  pal := []
  chrRam := []
  draws := 0
  buttonDraws := 0
  video := 0
  audio := 0

/-- The mapper state a cartridge load creates (spec/10_state.md R40, R290). -/
def Mapper.ofNumber (n : Nat) : Mapper :=
  match n with
  | 0 => .nrom
  | 1 => .mmc1 { shift := 0x10, control := 0, chr0 := 0, chr1 := 0, prg := 0 }
  | n => .unsupported n

/-- The warning of a cartridge load (R255): the mapper number, if it is not 0 or 1. -/
def loadWarning (cart : Cartridge) : Option Nat :=
  if cart.mapper ≤ 1 then none else some cart.mapper

/-- Everything of `Reset()` (R290) but the vector read. -/
def State.cleared (cart : Cartridge) (params : Params) (r : ResetValues) : State where
  a := r.a
  x := r.x
  y := r.y
  sp := r.sp
  pc := 0
  p := Flags.ofByte r.p
  cyclesRemaining := 0
  nmiPrev := false
  instrCount := 0
  extraCycles := 0
  ram := r.ram
  ppu :=
    { ctrl := 0, mask := 0, status := 0, oamAddr := 0, oam := r.oam
      vramAddr := 0, addrToggle := false, readBuffer := 0
      scroll0 := 0, scroll1 := 0, scrollToggle := false
      nt := r.nt, pal := r.pal, chrRam := r.chrRam }
  apu := { bank := [], reloadLinear := false, reloadNoise := false }
  ctl := { latch := 0, strobe := false, readBit := 0 }
  mapper := Mapper.ofNumber cart.mapper
  tick := 0
  halted := none
  cart := cart
  params := params
  draws := r.draws
  buttonDraws := r.buttonDraws
  video := r.video
  audio := r.audio

/-- `Load(cartridge)` then `Reset()` (R279, R290): PC comes from the reset vector, through the mapper. -/
def State.powerOn (cart : Cartridge) (params : Params) (r : ResetValues) : State :=
  let v := readVector resetVector (State.cleared cart params r)
  v.2.setPc v.1

end Sys2Proof.Machine
end

