-- ==== Sys2Proof/Machine/Step.lean ====
section
/-! DEFINITION. The step of the machine, one master tick (spec/60_exceptions.md R270, log entry 10),
and an instruction placed where the step fetches its next one. -/

namespace Sys2Proof.Machine

/-- One step: `Tick()`. -/
def step (s : State) : Host.Outcome State Fault Refusal := tick s

/-- `s` with a table word stored where `step` fetches its next instruction, and made ready to fetch
it in the very next step (log entry 13). -/
def State.withFetchWord (s : State) (nbits w : Nat) : State :=
  let v := w % 2 ^ nbits
  placeAtPc (BitVec.ofNat 8 v) (BitVec.ofNat 8 (v / 256)) (BitVec.ofNat 8 (v / 65536)) (atBoundary s)

end Sys2Proof.Machine
end

