-- ==== Sys2Proof/Safety.lean ====
section
/-! DEFINITION. The terms claims are stated in: which reads cannot fault, when an instruction starts,
the invariant of the machine, and states that differ only in what no program can observe. -/

namespace Sys2Proof.Machine

/-! ### Reads that cannot fault -/

/-- A bus read of the address does not fault: it is neither one of the write-only PPU registers or
their mirrors (spec/20_memory.md R64, R65, R68, R71, R73) nor an unmapped APU/IO address (R84). -/
def readable (a : Addr) : Bool :=
  let n := a.toNat
  if n < 0x2000 then true
  else if n < 0x4000 then n % 8 == 2 || n % 8 == 4 || n % 8 == 7
  else n < 0x4010 || n == 0x4015 || n == 0x4016 || 0x4020 ≤ n

/-- An OAM DMA from the page does not fault: the page has no PPU register and is not $40 (R86, R304). -/
def dmaReadable (page : Byte) : Bool := page.toNat < 0x20 || 0x40 < page.toNat

/-- The operand can be read in the state. -/
def Operand.readable (o : Operand) (s : State) : Bool :=
  match place o s with
  | .memory ea => Machine.readable ea
  | _ => true

/-! ### Starting an instruction -/

/-- The next step starts an instruction: the clock runs, the tick is a multiple of 3, and no cycles
remain (spec/60_exceptions.md R270, R271). -/
def State.startsInstruction (s : State) : Prop :=
  s.halted = none ∧ s.tick % 3 = 0 ∧ s.cyclesRemaining = 0

/-- The bytes at PC, in RAM or in the mapped PRG image, are the encoding of the instruction. -/
def State.holdsAtPc (s : State) (i : Instr) : Prop :=
  ∀ k b, (encode i)[k]? = some b → peek s (s.pc + BitVec.ofNat 16 k) = some b

/-- The instruction's length less the opcode byte, how far its mode moves PC (R120, R122). -/
def operandBytes (i : Instr) : Addr := BitVec.ofNat 16 ((encode i).length - 1)

/-- The row of an instruction in the encoding table of its rule: opcode, mode, base cycles. -/
abbrev Row := Byte × AddrMode × Nat

def tableRow (i : Instr) : Row := (i.info.opcode, i.info.mode, i.info.cycles)

/-! ### The encoding tables of the instruction rules, with what each rule says of the mnemonic -/

/-- LDA, LDX, LDY and the register each loads (spec/40_load_store_transfer.md R151-R153). -/
def loadTable : List (Mnemonic × Reg × List Row) :=
  [(.lda, .a,
      [(0xA9, .immediate, 2), (0xA5, .zeroPage, 3), (0xB5, .zeroPageX, 4), (0xAD, .absolute, 4),
       (0xBD, .absoluteX, 4), (0xB9, .absoluteY, 4), (0xA1, .indirectX, 6), (0xB1, .indirectY, 5)]),
   (.ldx, .x,
      [(0xA2, .immediate, 2), (0xA6, .zeroPage, 3), (0xB6, .zeroPageY, 4), (0xAE, .absolute, 4),
       (0xBE, .absoluteY, 4)]),
   (.ldy, .y,
      [(0xA0, .immediate, 2), (0xA4, .zeroPage, 3), (0xB4, .zeroPageX, 4), (0xAC, .absolute, 4),
       (0xBC, .absoluteX, 4)])]

/-- STA, STX, STY and the register each stores (spec/40_load_store_transfer.md R154-R156). -/
def storeTable : List (Mnemonic × Reg × List Row) :=
  [(.sta, .a,
      [(0x85, .zeroPage, 3), (0x95, .zeroPageX, 4), (0x8D, .absolute, 4), (0x9D, .absoluteX, 5),
       (0x99, .absoluteY, 5), (0x81, .indirectX, 6), (0x91, .indirectY, 6)]),
   (.stx, .x, [(0x86, .zeroPage, 3), (0x96, .zeroPageY, 4), (0x8E, .absolute, 4)]),
   (.sty, .y, [(0x84, .zeroPage, 3), (0x94, .zeroPageX, 4), (0x8C, .absolute, 4)])]

/-- The transfers that set flags: the opcode, the source's value, the destination
(spec/40_load_store_transfer.md R157-R161). -/
def transferTable (s : State) : List (Instr × Byte × Byte × Reg) :=
  [(.tax, 0xAA, s.a, .x), (.tay, 0xA8, s.a, .y), (.txa, 0x8A, s.x, .a), (.tya, 0x98, s.y, .a),
   (.tsx, 0xBA, s.sp, .x)]

/-- ADC (spec/41_arith_logic.md R173). -/
def adcRows : List Row :=
  [(0x69, .immediate, 2), (0x65, .zeroPage, 3), (0x75, .zeroPageX, 4), (0x6D, .absolute, 4),
   (0x7D, .absoluteX, 4), (0x79, .absoluteY, 4), (0x61, .indirectX, 6), (0x71, .indirectY, 5)]

/-- SBC (spec/41_arith_logic.md R174). -/
def sbcRows : List Row :=
  [(0xE9, .immediate, 2), (0xE5, .zeroPage, 3), (0xF5, .zeroPageX, 4), (0xED, .absolute, 4),
   (0xFD, .absoluteX, 4), (0xF9, .absoluteY, 4), (0xE1, .indirectX, 6), (0xF1, .indirectY, 5)]

/-- AND, ORA, EOR and their bitwise operations (spec/41_arith_logic.md R175-R177). -/
def logicTable : List (Mnemonic × (Byte → Byte → Byte) × List Row) :=
  [(.and, (· &&& ·),
      [(0x29, .immediate, 2), (0x25, .zeroPage, 3), (0x35, .zeroPageX, 4), (0x2D, .absolute, 4),
       (0x3D, .absoluteX, 4), (0x39, .absoluteY, 4), (0x21, .indirectX, 6), (0x31, .indirectY, 5)]),
   (.ora, (· ||| ·),
      [(0x09, .immediate, 2), (0x05, .zeroPage, 3), (0x15, .zeroPageX, 4), (0x0D, .absolute, 4),
       (0x1D, .absoluteX, 4), (0x19, .absoluteY, 4), (0x01, .indirectX, 6), (0x11, .indirectY, 5)]),
   (.eor, (· ^^^ ·),
      [(0x49, .immediate, 2), (0x45, .zeroPage, 3), (0x55, .zeroPageX, 4), (0x4D, .absolute, 4),
       (0x5D, .absoluteX, 4), (0x59, .absoluteY, 4), (0x41, .indirectX, 6), (0x51, .indirectY, 5)])]

/-- CMP, CPX, CPY and the register each compares (spec/41_arith_logic.md R179-R181). -/
def compareTable : List (Mnemonic × Reg × List Row) :=
  [(.cmp, .a,
      [(0xC9, .immediate, 2), (0xC5, .zeroPage, 3), (0xD5, .zeroPageX, 4), (0xCD, .absolute, 4),
       (0xDD, .absoluteX, 4), (0xD9, .absoluteY, 4), (0xC1, .indirectX, 6), (0xD1, .indirectY, 5)]),
   (.cpx, .x, [(0xE0, .immediate, 2), (0xE4, .zeroPage, 3), (0xEC, .absolute, 4)]),
   (.cpy, .y, [(0xC0, .immediate, 2), (0xC4, .zeroPage, 3), (0xCC, .absolute, 4)])]

/-- BIT (spec/41_arith_logic.md R182). -/
def bitRows : List Row := [(0x24, .zeroPage, 3), (0x2C, .absolute, 4)]

/-- INC and DEC and what each adds modulo 256 (spec/41_arith_logic.md R183, R184). -/
def countTable : List (Mnemonic × Byte × List Row) :=
  [(.inc, 1, [(0xE6, .zeroPage, 5), (0xF6, .zeroPageX, 6), (0xEE, .absolute, 6), (0xFE, .absoluteX, 7)]),
   (.dec, 255, [(0xC6, .zeroPage, 5), (0xD6, .zeroPageX, 6), (0xCE, .absolute, 6), (0xDE, .absoluteX, 7)])]

/-- INX, INY, DEX, DEY: the opcode, the register, and what is added to it modulo 256
(spec/41_arith_logic.md R185-R188). -/
def registerCountTable : List (Instr × Byte × Reg × Byte) :=
  [(.inx, 0xE8, .x, 1), (.iny, 0xC8, .y, 1), (.dex, 0xCA, .x, 255), (.dey, 0x88, .y, 255)]

/-- ASL A, LSR A, ROL A, ROR A: the opcode, the result and the bit shifted out, for A = `v` and the
carry `c` (spec/42_shift_rotate.md R201-R204). -/
def accumulatorShiftTable (v : Nat) (c : Bool) : List (Instr × Byte × Nat × Bool) :=
  [(.aslA, 0x0A, v * 2 % 256, decide (128 ≤ v)), (.lsrA, 0x4A, v / 2, decide (v % 2 = 1)),
   (.rolA, 0x2A, (v * 2 + c.toNat) % 256, decide (128 ≤ v)),
   (.rorA, 0x6A, v / 2 + 128 * c.toNat, decide (v % 2 = 1))]

/-- The memory forms of ASL, LSR, ROL, ROR: the result and the bit shifted out, from the byte and the
carry (spec/42_shift_rotate.md R201-R204). -/
def memoryShiftTable : List (Mnemonic × (Nat → Bool → Nat × Bool) × List Row) :=
  [(.asl, fun v _ => (v * 2 % 256, decide (128 ≤ v)),
      [(0x06, .zeroPage, 5), (0x16, .zeroPageX, 6), (0x0E, .absolute, 6), (0x1E, .absoluteX, 7)]),
   (.lsr, fun v _ => (v / 2, decide (v % 2 = 1)),
      [(0x46, .zeroPage, 5), (0x56, .zeroPageX, 6), (0x4E, .absolute, 6), (0x5E, .absoluteX, 7)]),
   (.rol, fun v c => ((v * 2 + c.toNat) % 256, decide (128 ≤ v)),
      [(0x26, .zeroPage, 5), (0x36, .zeroPageX, 6), (0x2E, .absolute, 6), (0x3E, .absoluteX, 7)]),
   (.ror, fun v c => (v / 2 + 128 * c.toNat, decide (v % 2 = 1)),
      [(0x66, .zeroPage, 5), (0x76, .zeroPageX, 6), (0x6E, .absolute, 6), (0x7E, .absoluteX, 7)])]

/-- The eight branches with the displacement byte `d`: the opcode and the condition
(spec/43_control_transfer.md R211-R218). -/
def branchTable (d : Byte) (p : Flags) : List (Instr × Byte × Bool) :=
  [(.bpl d, 0x10, !p.n), (.bmi d, 0x30, p.n), (.bvc d, 0x50, !p.v), (.bvs d, 0x70, p.v),
   (.bcc d, 0x90, !p.c), (.bcs d, 0xB0, p.c), (.bne d, 0xD0, !p.z), (.beq d, 0xF0, p.z)]

/-- PHA and PHP: the opcode and the byte pushed, A or the status byte with bits 4 and 5 set
(spec/44_stack_flags_misc.md R231, R232). -/
def pushTable (s : State) : List (Instr × Byte × Byte) :=
  [(.pha, 0x48, s.a),
   (.php, 0x08, BitVec.ofNat 8
      (128 * s.p.n.toNat + 64 * s.p.v.toNat + 32 + 16 + 8 * s.p.d.toNat + 4 * s.p.i.toNat +
        2 * s.p.z.toNat + s.p.c.toNat))]

/-- The flag instructions: the opcode and the flags afterwards (spec/44_stack_flags_misc.md R235-R241). -/
def flagTable (p : Flags) : List (Instr × Byte × Flags) :=
  [(.clc, 0x18, { p with c := false }), (.sec, 0x38, { p with c := true }),
   (.cli, 0x58, { p with i := false }), (.sei, 0x78, { p with i := true }),
   (.clv, 0xB8, { p with v := false }), (.cld, 0xD8, { p with d := false }),
   (.sed, 0xF8, { p with d := true })]

/-- NOP and NOP* (spec/44_stack_flags_misc.md R242, R243). -/
def nopTable : List (Mnemonic × List Row) :=
  [(.nop, [(0xEA, .implied, 2)]),
   (.nopStar,
      [(0x1A, .implied, 2), (0x3A, .implied, 2), (0x5A, .implied, 2), (0x7A, .implied, 2),
       (0xDA, .implied, 2), (0xFA, .implied, 2)] ++
      [(0x80, .immediate, 2), (0x82, .immediate, 2), (0x89, .immediate, 2), (0xC2, .immediate, 2),
       (0xE2, .immediate, 2), (0x04, .zeroPage, 3), (0x44, .zeroPage, 3), (0x64, .zeroPage, 3)] ++
      [(0x14, .zeroPageX, 4), (0x34, .zeroPageX, 4), (0x54, .zeroPageX, 4), (0x74, .zeroPageX, 4),
       (0xD4, .zeroPageX, 4), (0xF4, .zeroPageX, 4), (0x0C, .absolute, 4)] ++
      [(0x1C, .absoluteX, 4), (0x3C, .absoluteX, 4), (0x5C, .absoluteX, 4), (0x7C, .absoluteX, 4),
       (0xDC, .absoluteX, 4), (0xFC, .absoluteX, 4)])]

/-! ### The invariant -/

/-- The indices the palette aliases away: no entry stands under one (R79). -/
def palAliases : List Nat := [0x10, 0x14, 0x18, 0x1C]

/-- The size of the nametable RAM (spec/10_state.md R37). -/
def ntSize (m : Mirroring) : Nat := if m = .fourScreen then 4096 else 2048

/-- The cartridge is one that R8 admits, in canonical form. -/
structure AdmittedCartridge (cart : Cartridge) : Prop where
  prgBanks : 1 ≤ cart.prgBanks
  prgWf : Memory.wf cart.prg = true
  prgBelow : Memory.below (16384 * cart.prgBanks) cart.prg = true
  chrWf : Memory.wf cart.chr = true
  chrBelow : Memory.below (8192 * cart.chrBanks) cart.chr = true
  mirroring : cart.mirroring ≠ .singleLower ∧ cart.mirroring ≠ .singleUpper

/-- The mapper state is the variant of the cartridge's mapper number, and an MMC1 shift register
always holds its marker bit or the sentinel (R40, R95). -/
def Mapper.fits (m : Mapper) (n : Nat) : Prop :=
  match m with
  | .nrom => n = 0
  | .mmc1 r => n = 1 ∧ r.shift ≠ 0
  | .unsupported k => n = k ∧ 2 ≤ k

/-- The cartridge is admitted, every array is in canonical form and within its size, and the mapper
state fits the cartridge. -/
structure State.Storage (s : State) : Prop where
  cart : AdmittedCartridge s.cart
  ramWf : Memory.wf s.ram = true
  ramBelow : Memory.below 2048 s.ram = true
  oamWf : Memory.wf s.ppu.oam = true
  oamBelow : Memory.below 256 s.ppu.oam = true
  ntWf : Memory.wf s.ppu.nt = true
  ntBelow : Memory.below (ntSize s.cart.mirroring) s.ppu.nt = true
  palWf : Memory.wf s.ppu.pal = true
  palBelow : Memory.below 32 s.ppu.pal = true
  palClean : ∀ c ∈ s.ppu.pal, c.1 ∉ palAliases
  chrRamWf : Memory.wf s.ppu.chrRam = true
  chrRamBelow : Memory.below 8192 s.ppu.chrRam = true
  /-- CHR-RAM exists only without CHR-ROM (R37) -/
  chrRamOnly : s.cart.chrBanks ≠ 0 → s.ppu.chrRam = []
  bankWf : Memory.wf s.apu.bank = true
  /-- the bank's slots are $4000-$4017, and $4014 and $4016 are never written (R38) -/
  bankSlots : ∀ c ∈ s.apu.bank, 0x4000 ≤ c.1 ∧ c.1 ≤ 0x4017 ∧ c.1 ≠ 0x4014 ∧ c.1 ≠ 0x4016
  mapper : s.mapper.fits s.cart.mapper

/-- What holds of the machine between ticks. -/
structure State.Inv (s : State) : Prop where
  storage : s.Storage
  /-- the stall is consumed by the instruction that armed it (R32, R305) -/
  stall : s.extraCycles = 0
  /-- the longest reload: 7 base cycles and a DMA stall (R272, R310) -/
  remaining : s.cyclesRemaining ≤ 520
  running : s.halted = none

/-! ### States that differ only in the MMC1 registers -/

/-- Two states of an MMC1 machine that differ at most in the MMC1 registers (R41, R97). -/
def State.mmc1Twin (s t : State) : Prop :=
  ∃ r r', s.mapper = .mmc1 r ∧ t = s.setMapper (.mmc1 r')

/-- Two outcomes of the same kind, for the same reason, whose states are twins. -/
def outcomeTwin : Outcome → Outcome → Prop
  | .next s, .next t => s.mmc1Twin t
  | .fault f, .fault g => f.reason = g.reason ∧ f.final.mmc1Twin g.final
  | _, _ => False

/-! ### Sequences of accesses -/

/-- The bytes that `n` successive bus reads of $4016 return. -/
def controllerReads : Nat → State → List Byte
  | 0, _ => []
  | n + 1, s =>
    match busRead 0x4016 s with
    | .done v t => v :: controllerReads n t
    | .raised _ => []

/-- The state after bus writes made in order, none if one of them faults. -/
def busWrites : List (Addr × Byte) → State → Option State
  | [], s => some s
  | (a, v) :: rest, s =>
    match busWrite a v s with
    | .done _ t => busWrites rest t
    | .raised _ => none

end Sys2Proof.Machine
end

