-- ==== Sys2Proof/Certificates/Slice0/Obligations.lean ====
section
/-! DEFINITION. The statements for the provers. Rules are cited by file and number of spec/. A meaning
runs with PC at the first operand byte (spec/40_load_store_transfer.md R150), so `s.pc` in a
statement about `exec` is that address. Where a memory operand is read, `modeRead (place o s) s` or
`busRead ea s` is that read with its side effects; what a read may change is `ReadsChangeOnlyDevices`. -/

open Sys2Proof Sys2Proof.Machine

/-! ### Encoding -/

/-- Words written out from the encodings of the spec decode to the instructions they stand for. -/
def Obligations.WordsOfEveryFamilyDecode : Prop :=
  decode [0xA9, 0x05] = .ok (.ldaImm 0x05, []) ∧
  decode [0x8D, 0x10, 0x00] = .ok (.staAbs 0x0010, []) ∧
  decode [0xB6, 0xFF] = .ok (.ldxZpY 0xFF, []) ∧
  decode [0xAA] = .ok (.tax, []) ∧
  decode [0x69, 0x03] = .ok (.adcImm 0x03, []) ∧
  decode [0xC1, 0x20] = .ok (.cmpIndX 0x20, []) ∧
  decode [0x2C, 0x02, 0x20] = .ok (.bitAbs 0x2002, []) ∧
  decode [0xFE, 0x34, 0x12] = .ok (.incAbsX 0x1234, []) ∧
  decode [0x6A] = .ok (.rorA, []) ∧
  decode [0xD0, 0xFB] = .ok (.bne 0xFB, []) ∧
  decode [0x6C, 0xFF, 0x02] = .ok (.jmpInd 0x02FF, []) ∧
  decode [0x20, 0x00, 0xD0] = .ok (.jsr 0xD000, []) ∧
  decode [0x40] = .ok (.rti, []) ∧
  decode [0x08] = .ok (.php, []) ∧
  decode [0xF8] = .ok (.sed, []) ∧
  decode [0x1C, 0x00, 0x20] = .ok (.nopU1C 0x2000, [])

/-- Decoding the encoding of an instruction gives it back, whatever bytes follow (R120, R139). -/
def Obligations.DecodeOfEncodeIsTheInstruction : Prop :=
  ∀ (i : Instr) (rest : List Byte), decode (encode i ++ rest) = .ok (i, rest)

/-- Bytes that decode are the encoding of what they decode to: each word has one meaning. -/
def Obligations.DecodedBytesAreTheEncoding : Prop :=
  ∀ (bytes rest : List Byte) (i : Instr), decode bytes = .ok (i, rest) → encode i ++ rest = bytes

/-- The opcodes without a dispatch entry are exactly the 79 of R141, and they are rejected by name. -/
def Obligations.UnlistedOpcodesAreRejected : Prop :=
  ∀ (opcode : Byte) (rest : List Byte),
    decode (opcode :: rest) = .error (.unimplementedOpcode opcode) ↔
      opcode ∈
        ([0x00, 0x02, 0x03, 0x07, 0x0B, 0x0F, 0x12, 0x13, 0x17, 0x1B, 0x1F,
          0x22, 0x23, 0x27, 0x2B, 0x2F, 0x32, 0x33, 0x37, 0x3B, 0x3F] ++
         [0x42, 0x43, 0x47, 0x4B, 0x4F, 0x52, 0x53, 0x57, 0x5B, 0x5F,
          0x62, 0x63, 0x67, 0x6B, 0x6F, 0x72, 0x73, 0x77, 0x7B, 0x7F] ++
         [0x83, 0x87, 0x8B, 0x8F, 0x92, 0x93, 0x97, 0x9B, 0x9C, 0x9E, 0x9F,
          0xA3, 0xA7, 0xAB, 0xAF, 0xB2, 0xB3, 0xB7, 0xBB, 0xBF] ++
         [0xC3, 0xC7, 0xCB, 0xCF, 0xD2, 0xD3, 0xD7, 0xDB, 0xDF,
          0xE3, 0xE7, 0xEB, 0xEF, 0xF2, 0xF3, 0xF7, 0xFB, 0xFF] : List Byte)

/-! ### Fetch and step -/

/-- An opcode that has no dispatch entry under the machine's parameters raises `UnimplementedOpcode`
after its fetch: PC is the opcode's address + 1 and nothing else of the state after the NMI sample
(with its entry, if it fired) and the opcode read changes (R251). -/
def Obligations.UnlistedOpcodeRaisesItsFault : Prop :=
  ∀ (s u : State) (opcode : Byte), s.cyclesRemaining = 0 →
    busRead (takeNmi s).pc (takeNmi s) = .done opcode u →
    (u.params.admits opcode = false ∨
      ∀ rest, decode (opcode :: rest) = .error (.unimplementedOpcode opcode)) →
    cpuStep s =
      .fault (.unimplementedOpcode opcode u.instrCount
        { u with
          pc := u.pc + 1
          halted := some (.unimplementedOpcode opcode u.instrCount) })

/-- Fetching (R121, R124, R99, R243): the opcode is read at PC through the bus and the operand at the next
addresses, the low byte first, in the state the reads before it left; a read that faults ends the step.
A NOP* reads no operand. `execute` is `exec` and the completion of R271. -/
def Obligations.OperandsAreFetchedThroughTheBus : Prop :=
  ∀ (s : State), s.cyclesRemaining = 0 →
    let n := takeNmi s
    (∀ f, busRead n.pc n = .raised f → cpuStep s = .fault f) ∧
    ∀ (i : Instr) (u : State), busRead n.pc n = .done i.info.opcode u → i.wellFormed u.params = true →
      let v := { u with pc := n.pc + 1 }
      ((encode i).length = 1 ∨ i.info.mnemonic = .nopStar → cpuStep s = execute i v) ∧
      ((encode i).length = 2 → i.info.mnemonic ≠ .nopStar →
        match busRead v.pc v with
        | .raised f => cpuStep s = .fault f
        | .done b w => ∃ j, encode j = [i.info.opcode, b] ∧ cpuStep s = execute j w) ∧
      ((encode i).length = 3 → i.info.mnemonic ≠ .nopStar →
        match busRead16 v.pc v with
        | .raised f => cpuStep s = .fault f
        | .done a w => ∃ j, encode j = [i.info.opcode, lo a, hi a] ∧ cpuStep s = execute j w)

/-- A step runs the decoded instruction. When the next step starts an instruction, no NMI is due after
the video step, and the bytes at PC are the encoding of an admitted instruction `i`, the step is
`exec i` with PC at the first operand byte, then the completion (R271) and the end of the tick. -/
def Obligations.StepRunsTheDecodedInstruction : Prop :=
  ∀ (s : State) (i : Instr), s.startsInstruction →
    (nmiLine (videoStep s) && !s.nmiPrev) = false →
    i.wellFormed s.params = true → s.holdsAtPc i →
    step s =
      match exec i { videoStep s with nmiPrev := nmiLine (videoStep s), pc := s.pc + 1 } with
      | .next t =>
        .next (nextTick (audioStep
          { t with
            instrCount := t.instrCount + 1
            cyclesRemaining :=
              ((i.info.cycles : Int) + t.extraCycles + biasValue t.params.reloadBias).toNat
            extraCycles := 0 }))
      | .fault f => .fault f
      | .refused r => .refused r

/-- Every instruction has a meaning: neither an instruction nor a step is ever refused. -/
def Obligations.NothingIsRefused : Prop :=
  (∀ (i : Instr) (s : State) (r : Refusal), exec i s ≠ .refused r) ∧
  ∀ (s : State) (r : Refusal), step s ≠ .refused r

/-! ### Addressing modes -/

/-- How far each mode moves PC past its operand (R122), the effective address of every memory mode of the
resolver, and what the other modes stand for (R125-R135); a write through a read-only mode raises `IllegalAddressingOperation` (R252). -/
def Obligations.EffectiveAddressesOfTheModes : Prop :=
  (∀ (i : Instr), operandBytes i =
    match i.info.mode with
    | .implied | .accumulator => 0
    | .immediate | .zeroPage | .zeroPageX | .zeroPageY | .indirectX | .indirectY | .relative => 1
    | .absolute | .absoluteX | .absoluteY | .indirect => 2) ∧
  ∀ (opcode b v : Byte) (w : Addr) (s : State),
    let cell (k : Nat) := (Memory.read s.ram k).toNat
    let pointer (p : Nat) :=
      cell (match s.params.zpPointerWrap with | .wrap => (p + 1) % 256 | .none => p + 1) * 256 + cell p
    place .accumulator s = .accumulator ∧
    place (.immediate b) s = .immediate b ∧
    place (.zeroPage b) s = .memory (BitVec.ofNat 16 b.toNat) ∧
    place (.zeroPageX b) s = .memory (BitVec.ofNat 16 ((b.toNat + s.x.toNat) % 256)) ∧
    place (.zeroPageY b) s = .memory (BitVec.ofNat 16 ((b.toNat + s.y.toNat) % 256)) ∧
    place (.absolute w) s = .memory w ∧
    place (.absoluteX w) s = .memory (BitVec.ofNat 16 ((w.toNat + s.x.toNat) % 65536)) ∧
    place (.absoluteY w) s = .memory (BitVec.ofNat 16 ((w.toNat + s.y.toNat) % 65536)) ∧
    place (.indirectX b) s = .memory (BitVec.ofNat 16 (pointer ((b.toNat + s.x.toNat) % 256))) ∧
    place (.indirectY b) s =
      .memory (BitVec.ofNat 16 ((pointer b.toNat + s.y.toNat) % 65536)) ∧
    place (.relative b) s = .relative b ∧
    modeRead .accumulator s = .done s.a s ∧
    modeRead (.immediate b) s = .done b s ∧
    modeRead (.memory w) s = busRead w s ∧
    modeWrite opcode .accumulator v s = .done () { s with a := v } ∧
    modeWrite opcode (.memory w) v s = busWrite w v s ∧
    modeWrite opcode (.immediate b) v s =
      .raised (.illegalAddressingOperation opcode .immediate
        { s with halted := some (.illegalAddressingOperation opcode .immediate) }) ∧
    modeWrite opcode (.relative b) v s =
      .raised (.illegalAddressingOperation opcode .relative
        { s with halted := some (.illegalAddressingOperation opcode .relative) })

/-! ### Loads, stores, transfers -/

/-- LDA, LDX, LDY (R151-R153): with a readable operand the instruction completes, the register takes
the value read, Z and N follow it, and nothing else of the state after the read changes but PC; with
an operand whose read faults it faults. -/
def Obligations.LoadsWriteTheirRegister : Prop :=
  ∀ (i : Instr) (r : Reg) (rows : List (Byte × AddrMode × Nat)) (s : State),
    (i.info.mnemonic, r, rows) ∈ loadTable →
    tableRow i ∈ rows ∧
    ∃ o, i.operand = some o ∧
      (o.readable s = true → ∃ v u, modeRead (place o s) s = .done v u ∧
        exec i s =
          .next { u.setReg r v with
            p := { s.p with z := decide (v = 0), n := v.msb }
            pc := s.pc + operandBytes i }) ∧
      (o.readable s = false → ∃ f, modeRead (place o s) s = .raised f ∧ exec i s = .fault f)

/-- STA, STX, STY (R154-R156): the register is written at the operand's effective address, which is
not read; the instruction completes unless it starts an OAM DMA whose page cannot be read, and then
it faults as the DMA does; no flag and no register changes but PC. -/
def Obligations.StoresWriteTheirRegister : Prop :=
  ∀ (i : Instr) (r : Reg) (rows : List (Byte × AddrMode × Nat)) (s : State),
    (i.info.mnemonic, r, rows) ∈ storeTable →
    tableRow i ∈ rows ∧
    ∃ o ea, i.operand = some o ∧ place o s = .memory ea ∧
      (ea ≠ 0x4014 ∨ dmaReadable (s.reg r) = true →
        ∃ u, busWrite ea (s.reg r) s = .done () u ∧
          exec i s = .next { u with pc := s.pc + operandBytes i }) ∧
      (ea = 0x4014 ∧ dmaReadable (s.reg r) = false →
        ∃ f, busWrite ea (s.reg r) s = .raised f ∧ exec i s = .fault f)

/-- The frame of STA, STX and STY: registers, flags and every byte of memory other than the byte stored
to are as before, for the address the operand resolves to; and a device component changes only when
that address is one of its registers: the PPU (OAM with it) by the PPU window or by $4014, the stall and
the draws by $4014 alone. -/
def Obligations.StoresChangeOnlyTheirByte : Prop :=
  ∀ (i : Instr) (o : Operand) (ea : Addr) (s t : State),
    i.info.mnemonic ∈ ([.sta, .stx, .sty] : List Mnemonic) →
    i.operand = some o → place o s = .memory ea → exec i s = .next t →
    t = { s with
          pc := s.pc + operandBytes i, ram := t.ram, ppu := t.ppu, apu := t.apu, ctl := t.ctl
          mapper := t.mapper, extraCycles := t.extraCycles, draws := t.draws
          buttonDraws := t.buttonDraws } ∧
    (∀ k, (ea.toNat < 0x2000 → k ≠ ea.toNat % 2048) → Memory.read t.ram k = Memory.read s.ram k) ∧
    (∀ a, (ea.toNat < 0x2000 → a.toNat < 0x2000 → a.toNat % 2048 ≠ ea.toNat % 2048) →
      peek t a = peek s a) ∧
    (ea.toNat < 0x2000 ∨ 0x4000 ≤ ea.toNat → ea ≠ 0x4014 → t.ppu = s.ppu) ∧
    (ea.toNat < 0x4000 ∨ 0x4018 ≤ ea.toNat → t.apu = s.apu) ∧
    (∀ k, k ≠ ea.toNat → Memory.read t.apu.bank k = Memory.read s.apu.bank k) ∧
    (ea ≠ 0x4014 → t.extraCycles = s.extraCycles ∧ t.draws = s.draws) ∧
    (ea ≠ 0x4014 → ea ≠ 0x4016 → t.ctl = s.ctl ∧ t.buttonDraws = s.buttonDraws) ∧
    (ea.toNat < 0x8000 → t.mapper = s.mapper)

/-- TAX, TAY, TXA, TYA, TSX (R157-R161): the destination takes the source, Z and N follow it, nothing
else changes; TXS (R162) writes SP and sets no flag. -/
def Obligations.TransfersCopyARegister : Prop :=
  ∀ (s : State),
    (∀ (i : Instr) (opcode v : Byte) (r : Reg),
      (i, opcode, v, r) ∈ transferTable s →
      tableRow i = (opcode, .implied, 2) ∧
      exec i s =
        .next { s.setReg r v with p := { s.p with z := decide (v = 0), n := v.msb } }) ∧
    tableRow .txs = (0x9A, .implied, 2) ∧
    exec .txs s = .next { s with sp := s.x }

/-! ### Arithmetic and logic -/

/-- The laws of the one adder (R172): sum modulo 256, carry out, and overflow by sign and by range;
and the carry into bit 7 XOR the carry out of bit 7 that R171 defines overflow as. -/
def Obligations.BitSerialAdderLaws : Prop :=
  ∀ (a b : Byte) (cin : Bool),
    let n := a.toNat + b.toNat + cin.toNat
    let t := bitSerialAdd a b cin
    t.1.toNat = n % 256 ∧
    t.2.1 = decide (256 ≤ n) ∧
    t.2.2 = decide (a.msb = b.msb ∧ t.1.msb ≠ a.msb) ∧
    t.2.2 = !decide (-128 ≤ a.toInt + b.toInt + cin.toNat ∧ a.toInt + b.toInt + cin.toNat ≤ 127) ∧
    t.2.2 = (decide (128 ≤ a.toNat % 128 + b.toNat % 128 + cin.toNat) ^^ t.2.1)

/-- ADC (R173): A takes A + m + C, C is the carry out, V the signed overflow, Z and N follow the
result; the sum is binary whatever D holds. -/
def Obligations.AddWithCarrySumsIntoA : Prop :=
  ∀ (i : Instr) (s : State), i.info.mnemonic = .adc →
    tableRow i ∈ adcRows ∧
    ∃ o, i.operand = some o ∧
      (o.readable s = true → ∃ m u, modeRead (place o s) s = .done m u ∧
        let n := s.a.toNat + m.toNat + s.p.c.toNat
        let k := s.a.toInt + m.toInt + s.p.c.toNat
        exec i s =
          .next { u with
            a := BitVec.ofNat 8 n
            p := { s.p with
              c := decide (256 ≤ n), v := !decide (-128 ≤ k ∧ k ≤ 127)
              z := decide (n % 256 = 0), n := decide (128 ≤ n % 256) }
            pc := s.pc + operandBytes i }) ∧
      (o.readable s = false → ∃ f, modeRead (place o s) s = .raised f ∧ exec i s = .fault f)

/-- SBC (R174): A takes A - m - (1 - C), C is set exactly when there is no borrow, V is the signed
overflow, Z and N follow the result. -/
def Obligations.SubtractWithBorrowFromA : Prop :=
  ∀ (i : Instr) (s : State), i.info.mnemonic = .sbc →
    tableRow i ∈ sbcRows ∧
    ∃ o, i.operand = some o ∧
      (o.readable s = true → ∃ m u, modeRead (place o s) s = .done m u ∧
        let borrow := 1 - s.p.c.toNat
        let n := 256 + s.a.toNat - m.toNat - borrow
        let k := s.a.toInt - m.toInt - borrow
        exec i s =
          .next { u with
            a := BitVec.ofNat 8 n
            p := { s.p with
              c := decide (m.toNat + borrow ≤ s.a.toNat), v := !decide (-128 ≤ k ∧ k ≤ 127)
              z := decide (n % 256 = 0), n := decide (128 ≤ n % 256) }
            pc := s.pc + operandBytes i }) ∧
      (o.readable s = false → ∃ f, modeRead (place o s) s = .raised f ∧ exec i s = .fault f)

/-- AND, ORA, EOR (R175-R177): A takes the bitwise result, Z and N follow it. -/
def Obligations.LogicalOperationsCombineIntoA : Prop :=
  ∀ (i : Instr) (f : Byte → Byte → Byte) (rows : List (Byte × AddrMode × Nat)) (s : State),
    (i.info.mnemonic, f, rows) ∈ logicTable →
    tableRow i ∈ rows ∧
    ∃ o, i.operand = some o ∧
      (o.readable s = true → ∃ m u, modeRead (place o s) s = .done m u ∧
        exec i s =
          .next { u with
            a := f s.a m
            p := { s.p with z := decide (f s.a m = 0), n := (f s.a m).msb }
            pc := s.pc + operandBytes i }) ∧
      (o.readable s = false → ∃ e, modeRead (place o s) s = .raised e ∧ exec i s = .fault e)

/-- CMP, CPX, CPY (R178-R181): C is register ≥ operand unsigned, Z is equality, N is bit 7 of the
difference; V and every register but PC stay, and the old C has no effect. -/
def Obligations.ComparesSetOnlyFlags : Prop :=
  ∀ (i : Instr) (r : Reg) (rows : List (Byte × AddrMode × Nat)) (s : State),
    (i.info.mnemonic, r, rows) ∈ compareTable →
    tableRow i ∈ rows ∧
    ∃ o, i.operand = some o ∧
      (o.readable s = true → ∃ m u, modeRead (place o s) s = .done m u ∧
        exec i s =
          .next { u with
            p := { s.p with
              c := decide (m.toNat ≤ (s.reg r).toNat), z := decide (s.reg r = m)
              n := (s.reg r - m).msb }
            pc := s.pc + operandBytes i }) ∧
      (o.readable s = false → ∃ f, modeRead (place o s) s = .raised f ∧ exec i s = .fault f)

/-- BIT (R182): Z from A AND m, N from bit 7 and V from bit 6 of m; A and C stay. -/
def Obligations.BitTestSetsOnlyFlags : Prop :=
  ∀ (i : Instr) (s : State), i.info.mnemonic = .bit →
    tableRow i ∈ bitRows ∧
    ∃ o, i.operand = some o ∧
      (o.readable s = true → ∃ m u, modeRead (place o s) s = .done m u ∧
        exec i s =
          .next { u with
            p := { s.p with
              z := decide (s.a &&& m = 0), n := m.getLsbD 7, v := m.getLsbD 6 }
            pc := s.pc + operandBytes i }) ∧
      (o.readable s = false → ∃ f, modeRead (place o s) s = .raised f ∧ exec i s = .fault f)

/-- INC and DEC (R183, R184): one read and one write of the value changed by 1 modulo 256 at the same
effective address; Z and N follow the new value, C and V stay. A read that faults writes nothing. -/
def Obligations.IncrementAndDecrementMemory : Prop :=
  ∀ (i : Instr) (d : Byte) (rows : List (Byte × AddrMode × Nat)) (s : State),
    (i.info.mnemonic, d, rows) ∈ countTable →
    tableRow i ∈ rows ∧
    ∃ o ea, i.operand = some o ∧ place o s = .memory ea ∧
      (readable ea = true → ∃ v u w, busRead ea s = .done v u ∧ busWrite ea (v + d) u = .done () w ∧
        exec i s =
          .next { w with
            p := { s.p with z := decide (v + d = 0), n := (v + d).msb }
            pc := s.pc + operandBytes i }) ∧
      (readable ea = false → ∃ f, busRead ea s = .raised f ∧ exec i s = .fault f)

/-- INX, INY, DEX, DEY (R185-R188): the register changes by 1 modulo 256, Z and N follow it, nothing
else changes. -/
def Obligations.IncrementAndDecrementRegisters : Prop :=
  ∀ (i : Instr) (opcode d : Byte) (r : Reg) (s : State),
    (i, opcode, r, d) ∈ registerCountTable →
    tableRow i = (opcode, .implied, 2) ∧
    exec i s =
      .next { s.setReg r (s.reg r + d) with
        p := { s.p with z := decide (s.reg r + d = 0), n := (s.reg r + d).msb } }

/-! ### Shifts and rotates -/

/-- ASL, LSR, ROL, ROR (R200-R204), by number: the Accumulator forms, then the memory forms, one read
and one write at the same effective address; a read that faults writes nothing. -/
def Obligations.ShiftsAndRotates : Prop :=
  (∀ (i : Instr) (opcode : Byte) (r : Nat) (c : Bool) (s : State),
    (i, opcode, r, c) ∈ accumulatorShiftTable s.a.toNat s.p.c →
    tableRow i = (opcode, .accumulator, 2) ∧
    exec i s =
      .next { s with
        a := BitVec.ofNat 8 r
        p := { s.p with c := c, z := decide (r = 0), n := decide (128 ≤ r) } }) ∧
  ∀ (i : Instr) (o : Operand) (op : Nat → Bool → Nat × Bool) (rows : List (Byte × AddrMode × Nat))
    (s : State),
    i.operand = some o → o ≠ .accumulator → (i.info.mnemonic, op, rows) ∈ memoryShiftTable →
    tableRow i ∈ rows ∧
    ∃ ea, place o s = .memory ea ∧
      (readable ea = true → ∃ v u w, busRead ea s = .done v u ∧
        let r := op v.toNat s.p.c
        busWrite ea (BitVec.ofNat 8 r.1) u = .done () w ∧
        exec i s =
          .next { w with
            p := { s.p with c := r.2, z := decide (r.1 = 0), n := decide (128 ≤ r.1) }
            pc := s.pc + operandBytes i }) ∧
      (readable ea = false → ∃ f, busRead ea s = .raised f ∧ exec i s = .fault f)

/-- The frame of INC, DEC and the memory forms of ASL, LSR, ROL and ROR: registers, and every byte of
memory other than the one at the operand's effective address, are as before; no flag but C, Z and N
changes, and INC and DEC keep C; a device component changes only when that address is one of its
registers, and draws are taken only in cartridge space. -/
def Obligations.ReadModifyWriteChangesOnlyItsByte : Prop :=
  ∀ (i : Instr) (o : Operand) (ea : Addr) (s t : State),
    i.info.mnemonic ∈ ([.inc, .dec, .asl, .lsr, .rol, .ror] : List Mnemonic) →
    i.operand = some o → place o s = .memory ea → exec i s = .next t →
    t = { s with
          pc := s.pc + operandBytes i, p := { s.p with c := t.p.c, z := t.p.z, n := t.p.n }
          ram := t.ram, ppu := t.ppu, apu := t.apu, ctl := t.ctl, mapper := t.mapper
          draws := t.draws, buttonDraws := t.buttonDraws } ∧
    (i.info.mnemonic ∈ ([.inc, .dec] : List Mnemonic) → t.p.c = s.p.c) ∧
    (∀ k, (ea.toNat < 0x2000 → k ≠ ea.toNat % 2048) → Memory.read t.ram k = Memory.read s.ram k) ∧
    (∀ a, (ea.toNat < 0x2000 → a.toNat < 0x2000 → a.toNat % 2048 ≠ ea.toNat % 2048) →
      peek t a = peek s a) ∧
    (ea.toNat < 0x2000 ∨ 0x4000 ≤ ea.toNat → t.ppu = s.ppu) ∧
    (ea.toNat < 0x4000 ∨ 0x4018 ≤ ea.toNat → t.apu = s.apu) ∧
    (∀ k, k ≠ ea.toNat → Memory.read t.apu.bank k = Memory.read s.apu.bank k) ∧
    (ea ≠ 0x4016 → t.ctl = s.ctl ∧ t.buttonDraws = s.buttonDraws) ∧
    (ea.toNat < 0x8000 → t.mapper = s.mapper) ∧
    (ea.toNat < 0x4020 → t.draws = s.draws)

/-! ### Control transfer -/

/-- The eight branches (R210-R218): PC moves past the displacement byte, and by the signed
displacement modulo 65536 exactly when the condition holds; nothing else changes. -/
def Obligations.BranchesMoveOnlyThePc : Prop :=
  ∀ (i : Instr) (opcode d : Byte) (taken : Bool) (s : State),
    (i, opcode, taken) ∈ branchTable d s.p →
    tableRow i = (opcode, .relative, 2) ∧ encode i = [opcode, d] ∧
    exec i s =
      .next { s with
        pc := BitVec.ofInt 16 (s.pc.toNat + 1 + if taken then d.toInt else 0) }

/-- JMP (R219, R220): the absolute form sets PC to its operand; the indirect form reads the low byte of
its target at the pointer and the high byte at the pointer plus 1 within the pointer's page, and
faults if either read does. -/
def Obligations.JumpsSetThePc : Prop :=
  ∀ (w : Addr) (s : State),
    tableRow (.jmpAbs w) = (0x4C, .absolute, 3) ∧ encode (.jmpAbs w) = [0x4C, lo w, hi w] ∧
    exec (.jmpAbs w) s = .next { s with pc := w } ∧
    tableRow (.jmpInd w) = (0x6C, .indirect, 5) ∧ encode (.jmpInd w) = [0x6C, lo w, hi w] ∧
    let next : Addr := BitVec.ofNat 16 (w.toNat / 256 * 256 + (w.toNat + 1) % 256)
    (readable w = true → readable next = true →
      ∃ l u h v, busRead w s = .done l u ∧ busRead next u = .done h v ∧
        exec (.jmpInd w) s = .next { v with pc := BitVec.ofNat 16 (h.toNat * 256 + l.toNat) }) ∧
    (readable w = false → ∃ f, busRead w s = .raised f ∧ exec (.jmpInd w) s = .fault f) ∧
    (readable w = true → readable next = false →
      ∃ l u f, busRead w s = .done l u ∧ busRead next u = .raised f ∧
        exec (.jmpInd w) s = .fault f)

/-- JSR (R221): the address of its last byte is pushed, high byte first, and PC takes the operand; SP
falls by 2 modulo 256 within page 1, and every other byte of RAM and everything else stays. -/
def Obligations.JsrPushesItsLastByteAddress : Prop :=
  ∀ (w : Addr) (s : State),
    tableRow (.jsr w) = (0x20, .absolute, 6) ∧ encode (.jsr w) = [0x20, lo w, hi w] ∧
    ∃ t, exec (.jsr w) s = .next t ∧
      t = { s with pc := w, sp := s.sp - 2, ram := t.ram } ∧
      ∀ k, Memory.read t.ram k =
        if k = 0x100 + s.sp.toNat then hi (s.pc + 1)
        else if k = 0x100 + (s.sp - 1).toNat then lo (s.pc + 1)
        else Memory.read s.ram k

/-- RTS (R222): PC is the word pulled low byte first plus 1, SP rises by 2, nothing else changes. RTI
(R223, R265): the status byte then the PC, low byte first, are pulled; bits 4 and 5 of the status byte
are ignored and PC is not adjusted; nothing else changes. -/
def Obligations.ReturnsPullThePc : Prop :=
  ∀ (s : State),
    let slot (k : Nat) : Byte := Memory.read s.ram (0x100 + (s.sp.toNat + k) % 256)
    tableRow .rts = (0x60, .implied, 6) ∧
    exec .rts s =
      .next { s with
        sp := s.sp + 2, pc := BitVec.ofNat 16 ((slot 2).toNat * 256 + (slot 1).toNat + 1) } ∧
    tableRow .rti = (0x40, .implied, 6) ∧
    exec .rti s =
      .next { s with
        p :=
          { c := (slot 1).getLsbD 0, z := (slot 1).getLsbD 1, i := (slot 1).getLsbD 2
            d := (slot 1).getLsbD 3, v := (slot 1).getLsbD 6, n := (slot 1).getLsbD 7 }
        sp := s.sp + 3
        pc := BitVec.ofNat 16 ((slot 3).toNat * 256 + (slot 2).toNat) }

/-! ### Stack, flags, no-operations -/

/-- PHA and PHP (R231, R232): one byte is pushed, A or the status byte with bits 4 and 5 set; SP falls
by 1 modulo 256, and every other byte of RAM and everything else stays. -/
def Obligations.PushesWriteOneStackByte : Prop :=
  ∀ (i : Instr) (opcode v : Byte) (s : State),
    (i, opcode, v) ∈ pushTable s →
    tableRow i = (opcode, .implied, 3) ∧
    ∃ t, exec i s = .next t ∧ t = { s with sp := s.sp - 1, ram := t.ram } ∧
      ∀ k, Memory.read t.ram k =
        if k = 0x100 + s.sp.toNat then v else Memory.read s.ram k

/-- PLA and PLP (R233, R234): the byte above SP in page 1 is pulled into A with Z and N following it,
or into the six flags; SP rises by 1 modulo 256, nothing else changes. -/
def Obligations.PullsReadOneStackByte : Prop :=
  ∀ (s : State),
    let b := Memory.read s.ram (0x100 + (s.sp + 1).toNat)
    tableRow .pla = (0x68, .implied, 4) ∧ tableRow .plp = (0x28, .implied, 4) ∧
    exec .pla s =
      .next { s with
        a := b, sp := s.sp + 1, p := { s.p with z := decide (b = 0), n := b.msb } } ∧
    exec .plp s =
      .next { s with
        sp := s.sp + 1
        p :=
          { c := b.getLsbD 0, z := b.getLsbD 1, i := b.getLsbD 2, d := b.getLsbD 3
            v := b.getLsbD 6, n := b.getLsbD 7 } }

/-- CLC, SEC, CLI, SEI, CLV, CLD, SED (R235-R241): one flag is written and nothing else changes. -/
def Obligations.FlagInstructionsWriteOneFlag : Prop :=
  ∀ (i : Instr) (opcode : Byte) (p : Flags) (s : State),
    (i, opcode, p) ∈ flagTable s.p →
    tableRow i = (opcode, .implied, 2) ∧ exec i s = .next { s with p := p }

/-- NOP and the 27 NOP* opcodes (R242, R243): PC moves past the operand bytes and nothing else changes,
whatever the operand names; no bus access is made. -/
def Obligations.NoOperationsMoveOnlyThePc : Prop :=
  ∀ (i : Instr) (rows : List (Byte × AddrMode × Nat)) (s : State),
    (i.info.mnemonic, rows) ∈ nopTable →
    tableRow i ∈ rows ∧ exec i s = .next { s with pc := s.pc + operandBytes i }

/-! ### Who writes what, over all instructions -/

/-- The writers of A, X, Y and SP (R20's table) and of the flags (R26): an instruction that completes
changes one of them only if its mnemonic, and for the shifts of A its Accumulator form, is on that
register's or flag's list. -/
def Obligations.RegistersAndFlagsHaveOnlyTheirWriters : Prop :=
  ∀ (i : Instr) (s t : State), exec i s = .next t →
    let zn : List Mnemonic :=
      [.lda, .ldx, .ldy, .tax, .tay, .txa, .tya, .tsx, .pla, .and, .ora, .eor, .adc, .sbc] ++
      [.cmp, .cpx, .cpy, .inc, .dec, .inx, .iny, .dex, .dey, .asl, .lsr, .rol, .ror] ++
      [.bit, .plp, .rti]
    let m := i.info.mnemonic
    (m ∉ ([.lda, .txa, .tya, .pla, .adc, .sbc, .and, .ora, .eor] : List Mnemonic) →
      i.info.mode ≠ .accumulator → t.a = s.a) ∧
    (m ∉ ([.ldx, .tax, .tsx, .inx, .dex] : List Mnemonic) → t.x = s.x) ∧
    (m ∉ ([.ldy, .tay, .iny, .dey] : List Mnemonic) → t.y = s.y) ∧
    (m ∉ ([.txs, .pha, .php, .pla, .plp, .jsr, .rts, .rti] : List Mnemonic) → t.sp = s.sp) ∧
    (m ∉ ([.adc, .sbc, .cmp, .cpx, .cpy, .asl, .lsr, .rol, .ror, .clc, .sec, .plp, .rti]
        : List Mnemonic) → t.p.c = s.p.c) ∧
    (m ∉ zn → t.p.z = s.p.z ∧ t.p.n = s.p.n) ∧
    (m ∉ ([.cli, .sei, .plp, .rti] : List Mnemonic) → t.p.i = s.p.i) ∧
    (m ∉ ([.cld, .sed, .plp, .rti] : List Mnemonic) → t.p.d = s.p.d) ∧
    (m ∉ ([.adc, .sbc, .bit, .clv, .plp, .rti] : List Mnemonic) → t.p.v = s.p.v)

/-- An instruction whose rule stores nothing leaves every byte of memory as it was (RAM, PRG, OAM, VRAM,
the APU bank), and the mapper, PPUCTRL, PPUMASK, OAMADDR, the scroll bytes and the scroll toggle. The
VRAM address is not among them: a $2007 read increments it (R74). -/
def Obligations.FormsThatStoreNothingKeepMemory : Prop :=
  ∀ (i : Instr) (s t : State), exec i s = .next t →
    i.info.mnemonic ∉ ([.sta, .stx, .sty, .inc, .dec, .jsr, .pha, .php] : List Mnemonic) →
    (i.info.mnemonic ∈ ([.asl, .lsr, .rol, .ror] : List Mnemonic) → i.info.mode = .accumulator) →
    t.ram = s.ram ∧ (∀ a, peek t a = peek s a) ∧ t.apu = s.apu ∧ t.mapper = s.mapper ∧
    t.extraCycles = s.extraCycles ∧ t.ppu.oam = s.ppu.oam ∧ t.ppu.nt = s.ppu.nt ∧
    t.ppu.pal = s.ppu.pal ∧ t.ppu.chrRam = s.ppu.chrRam ∧ t.ppu.ctrl = s.ppu.ctrl ∧
    t.ppu.mask = s.ppu.mask ∧ t.ppu.oamAddr = s.ppu.oamAddr ∧
    t.ppu.scroll0 = s.ppu.scroll0 ∧ t.ppu.scroll1 = s.ppu.scroll1 ∧
    t.ppu.scrollToggle = s.ppu.scrollToggle

/-- No instruction and no tick changes the cartridge or the parameters (spec/10_state.md R44), and no
instruction changes the tick, the instruction count, the edge detector, the remaining cycles or
`halted`. -/
def Obligations.ConfigurationAndClockAreNotTheInstructionsToChange : Prop :=
  (∀ (i : Instr) (s t : State), exec i s = .next t →
    t.cart = s.cart ∧ t.params = s.params ∧ t.tick = s.tick ∧ t.instrCount = s.instrCount ∧
    t.nmiPrev = s.nmiPrev ∧ t.cyclesRemaining = s.cyclesRemaining ∧ t.halted = s.halted ∧
    t.video = s.video ∧ t.audio = s.audio) ∧
  ∀ (s t : State), step s = .next t → t.cart = s.cart ∧ t.params = s.params

/-! ### The bus -/

/-- Internal RAM (R62): every address of $0000-$1FFF reads and writes the byte at the address modulo
2 KiB, with no other effect; a write is seen at all four mirrors and at no other cell. Two-byte reads
(R51, R58): little-endian; at or below $1FFF both bytes come from RAM, each address masked; above, the
low byte is read before the high byte, at the address plus 1 modulo 65536, and a read that faults ends
the access. -/
def Obligations.RamIsMirroredAndWordsAreLittleEndian : Prop :=
  (∀ (a b : Addr) (v : Byte) (s : State), a.toNat < 0x2000 → b.toNat < 0x2000 →
    busRead a s = .done (Memory.read s.ram (a.toNat % 2048)) s ∧
    ∃ t, busWrite a v s = .done () t ∧ t = { s with ram := t.ram } ∧
      busRead b t =
        .done (if b.toNat % 2048 = a.toNat % 2048 then v else Memory.read s.ram (b.toNat % 2048)) t) ∧
  ∀ (a : Addr) (s : State),
    (a.toNat ≤ 0x1FFF →
      busRead16 a s =
        .done (BitVec.ofNat 16
          ((Memory.read s.ram ((a.toNat + 1) % 2048)).toNat * 256 +
            (Memory.read s.ram (a.toNat % 2048)).toNat)) s) ∧
    (0x1FFF < a.toNat →
      busRead16 a s =
        match busRead a s with
        | .raised f => .raised f
        | .done l u =>
          match busRead (BitVec.ofNat 16 ((a.toNat + 1) % 65536)) u with
          | .raised f => .raised f
          | .done h v => .done (BitVec.ofNat 16 (h.toNat * 256 + l.toNat)) v)

/-- Which reads fault, and how (R253, R254): a PPU register 0, 1, 3, 5 or 6 or a mirror of it raises
`WriteOnlyRegisterRead`, $4010-$4014 and $4017-$401F raise `UnmappedIoRead`, every other read
completes; a read that faults changes nothing but `halted`. -/
def Obligations.ReadsFaultExactlyWhereTheSpecSays : Prop :=
  ∀ (a : Addr) (s : State),
    let n := a.toNat
    (0x2000 ≤ n ∧ n ≤ 0x3FFF ∧ n % 8 ∈ ([0, 1, 3, 5, 6] : List Nat) →
      busRead a s =
        .raised (.writeOnlyRegisterRead a { s with halted := some (.writeOnlyRegisterRead a) })) ∧
    (0x4010 ≤ n ∧ n ≤ 0x4014 ∨ 0x4017 ≤ n ∧ n ≤ 0x401F →
      busRead a s = .raised (.unmappedIoRead a { s with halted := some (.unmappedIoRead a) })) ∧
    (¬(0x2000 ≤ n ∧ n ≤ 0x3FFF ∧ n % 8 ∈ ([0, 1, 3, 5, 6] : List Nat)) →
      ¬(0x4010 ≤ n ∧ n ≤ 0x4014 ∨ 0x4017 ≤ n ∧ n ≤ 0x401F) → ∃ v t, busRead a s = .done v t)

/-- What a read may change (R53): vblank and the toggle at $2002, the buffer and the VRAM address at
$2007, the controller at $4016, and the model's counters of free values; elsewhere nothing. -/
def Obligations.ReadsChangeOnlyDevices : Prop :=
  ∀ (a : Addr) (v : Byte) (s t : State), busRead a s = .done v t →
    t = { s with
          ppu := { s.ppu with
            status := t.ppu.status, addrToggle := t.ppu.addrToggle
            readBuffer := t.ppu.readBuffer, vramAddr := t.ppu.vramAddr }
          ctl := t.ctl, draws := t.draws, buttonDraws := t.buttonDraws } ∧
    (¬(0x2000 ≤ a.toNat ∧ a.toNat ≤ 0x3FFF ∧ a.toNat % 8 = 2) →
      t.ppu.status = s.ppu.status ∧ t.ppu.addrToggle = s.ppu.addrToggle) ∧
    (¬(0x2000 ≤ a.toNat ∧ a.toNat ≤ 0x3FFF ∧ a.toNat % 8 = 7) →
      t.ppu.readBuffer = s.ppu.readBuffer ∧ t.ppu.vramAddr = s.ppu.vramAddr) ∧
    (a ≠ 0x4016 → t.ctl = s.ctl ∧ t.buttonDraws = s.buttonDraws) ∧
    (a.toNat < 0x4020 → t.draws = s.draws)

/-- Writes never fault (R257, R150), except that a write of $4014 faults exactly when its page holds a
register whose read faults. -/
def Obligations.WritesFaultOnlyThroughTheDma : Prop :=
  (∀ (a : Addr) (v : Byte) (s : State), a ≠ 0x4014 → ∃ t, busWrite a v s = .done () t) ∧
  ∀ (page : Byte) (s : State),
    (dmaReadable page = true → ∃ t, busWrite 0x4014 page s = .done () t) ∧
    (dmaReadable page = false → ∃ f, busWrite 0x4014 page s = .raised f)

/-- Writes of the PPU registers $2000-$2006 and of every mirror (R63-R69, R71, R72). -/
def Obligations.PpuRegisterWrites : Prop :=
  ∀ (a : Addr) (v : Byte) (s : State) (u : Ppu), 0x2000 ≤ a.toNat → a.toNat ≤ 0x3FFF →
    let shared := s.params.scrollSharesToggle
    let second := if shared then s.ppu.addrToggle else s.ppu.scrollToggle
    (a.toNat % 8, u) ∈
      ([(0, { s.ppu with ctrl := v }), (1, { s.ppu with mask := v }), (2, s.ppu),
        (3, { s.ppu with oamAddr := v }),
        (4, { s.ppu with
              oam := Memory.write s.ppu.oam s.ppu.oamAddr.toNat v, oamAddr := s.ppu.oamAddr + 1 }),
        (5, { s.ppu with
              scroll0 := if second then s.ppu.scroll0 else v
              scroll1 := if second then v else s.ppu.scroll1
              addrToggle := if shared then !s.ppu.addrToggle else s.ppu.addrToggle
              scrollToggle := if shared then s.ppu.scrollToggle else !s.ppu.scrollToggle }),
        (6, { s.ppu with
              vramAddr :=
                if s.ppu.addrToggle then BitVec.ofNat 16 (s.ppu.vramAddr.toNat / 256 * 256 + v.toNat)
                else BitVec.ofNat 16 (v.toNat * 256 + s.ppu.vramAddr.toNat % 256)
              addrToggle := !s.ppu.addrToggle })] : List (Nat × Ppu)) →
    busWrite a v s = .done () { s with ppu := u }

/-- Reads of PPUSTATUS, OAMDATA and PPUDATA and of every mirror (R66, R70, R74, R76): the status with
vblank cleared after it; the OAM byte; the buffered byte, then the refill and the increment. A PPUDATA
write (R75, R76, R80): the byte is stored at the VRAM address, so that the VRAM reads it back there
unless CHR-ROM stands there and every other place of the VRAM reads as before, the address steps by 1
or 32, and the read buffer stays. -/
def Obligations.PpuReadsAndDataWrites : Prop :=
  ∀ (a : Addr) (v : Byte) (s : State), 0x2000 ≤ a.toNat → a.toNat ≤ 0x3FFF →
    let next : Addr :=
      BitVec.ofNat 16 ((s.ppu.vramAddr.toNat + if s.ppu.ctrl.getLsbD 2 then 32 else 1) % 65536)
    (a.toNat % 8 = 2 →
      busRead a s =
        .done s.ppu.status
          { s with ppu := { s.ppu with
              status := BitVec.ofNat 8 (s.ppu.status.toNat % 128)
              addrToggle :=
                if s.params.statusReadResetsToggle then false else s.ppu.addrToggle } }) ∧
    (a.toNat % 8 = 4 → busRead a s = .done (Memory.read s.ppu.oam s.ppu.oamAddr.toNat) s) ∧
    (a.toNat % 8 = 7 →
      busRead a s =
        .done s.ppu.readBuffer
          { s with ppu := { s.ppu with
              readBuffer := vramRead s.cart s.ppu.vramAddr s.ppu, vramAddr := next } }) ∧
    (a.toNat % 8 = 7 →
      ∃ t, busWrite a v s = .done () t ∧
        t = { s with ppu := { s.ppu with
                nt := t.ppu.nt, pal := t.ppu.pal, chrRam := t.ppu.chrRam, vramAddr := next } } ∧
        (s.cart.chrBanks ≠ 0 → t.ppu.chrRam = s.ppu.chrRam) ∧
        vramRead s.cart s.ppu.vramAddr t.ppu =
          (if s.cart.chrBanks ≠ 0 ∧ s.ppu.vramAddr.toNat % 0x4000 < 0x2000 then
            vramRead s.cart s.ppu.vramAddr s.ppu
          else v) ∧
        ∀ w, vramTranslate s.cart.mirroring w ≠ vramTranslate s.cart.mirroring s.ppu.vramAddr →
          vramRead s.cart w t.ppu = vramRead s.cart w s.ppu)

/-- The VRAM map (R77-R80) by its regions, and the byte a VRAM read gives in each: the space mirrors every
16 KiB; the pattern region reads the cartridge's CHR bytes, or CHR-RAM when it has none; the nametables
read NT under each mirroring; the palette reads PAL with its aliases folded. -/
def Obligations.VramMapByRegion : Prop :=
  ∀ (cart : Cartridge) (w : Addr) (u : Ppu),
    let p := w.toNat % 0x4000
    (p < 0x2000 →
      vramTranslate cart.mirroring w = .chr p ∧
      vramRead cart w u =
        if cart.chrBanks = 0 then Memory.read u.chrRam p else Memory.read cart.chr p) ∧
    (0x2000 ≤ p → p < 0x3F00 →
      let t := (p - 0x2000) % 0x1000 / 0x400
      let k :=
        (match cart.mirroring with
          | .horizontal => if t < 2 then 0 else 1
          | .vertical => if t = 0 ∨ t = 2 then 0 else 1
          | .fourScreen => t
          | .singleLower => 0
          | .singleUpper => 1) * 0x400 + p % 0x400
      vramTranslate cart.mirroring w = .nt k ∧ vramRead cart w u = Memory.read u.nt k) ∧
    (0x3F00 ≤ p →
      let k := if p % 0x20 ∈ palAliases then p % 0x20 - 0x10 else p % 0x20
      vramTranslate cart.mirroring w = .pal k ∧ vramRead cart w u = Memory.read u.pal k)

/-- OAM DMA (R86) from a page of stored bytes, RAM or mapped PRG: OAM takes the 256 bytes of the page in
order from index 0, the stall is armed at 513 whatever it held, OAMADDR and everything else stay. From an
unmapped page of cartridge space it takes 256 draws in the same order (a page has one kind). From a PPU
page the first read faults with OAM and the stall as they were; from page $40 the sixteen bytes
before $4010 have been copied (R256). -/
def Obligations.OamDmaCopiesThePage : Prop :=
  ∀ (page : Byte) (s : State),
    let source (k : Nat) : Addr := BitVec.ofNat 16 (page.toNat * 256 + k)
    ((∀ k, k < 256 → (peek s (source k)).isSome = true) →
      ∃ t, busWrite 0x4014 page s = .done () t ∧
        t = { s with ppu := { s.ppu with oam := t.ppu.oam }, extraCycles := 513 } ∧
        (∀ k, k < 256 → peek s (source k) = some (Memory.read t.ppu.oam k)) ∧
        ∀ k, 256 ≤ k → Memory.read t.ppu.oam k = Memory.read s.ppu.oam k) ∧
    (0x40 < page.toNat → (∀ k, k < 256 → peek s (source k) = none) →
      ∃ t, busWrite 0x4014 page s = .done () t ∧
        t = { s with
              ppu := { s.ppu with oam := t.ppu.oam }, extraCycles := 513, draws := s.draws + 256 } ∧
        (∀ k, k < 256 → Memory.read t.ppu.oam k = Config.draw (s.draws + k)) ∧
        ∀ k, 256 ≤ k → Memory.read t.ppu.oam k = Memory.read s.ppu.oam k) ∧
    (0x20 ≤ page.toNat → page.toNat < 0x40 →
      busWrite 0x4014 page s =
        .raised (.writeOnlyRegisterRead (source 0)
          { s with halted := some (.writeOnlyRegisterRead (source 0)) })) ∧
    (page = 0x40 → ∃ u,
      busWrite 0x4014 page s = .raised (.unmappedIoRead 0x4010 u) ∧
      u = { s with
            ppu := { s.ppu with oam := u.ppu.oam }, halted := some (.unmappedIoRead 0x4010) } ∧
      ∀ k, Memory.read u.ppu.oam k =
        if k < 16 then Memory.read s.apu.bank (0x4000 + k) else Memory.read s.ppu.oam k)

/-- The APU/IO window (R81-R83, R85): $4000-$400F and $4015 store and read back a byte; $400B and
$400F also set a reload flag; $4010-$4013 and $4017 store; $4018-$7FFF ignore the write. -/
def Obligations.ApuBankStoresBytes : Prop :=
  ∀ (a : Addr) (v : Byte) (s : State),
    let n := a.toNat
    (0x4000 ≤ n → n ≤ 0x4017 → n ≠ 0x4014 → n ≠ 0x4016 →
      ∃ t, busWrite a v s = .done () t ∧
        t = { s with apu :=
                { bank := t.apu.bank
                  reloadLinear := s.apu.reloadLinear || decide (n = 0x400B)
                  reloadNoise := s.apu.reloadNoise || decide (n = 0x400F) } } ∧
        (∀ k, Memory.read t.apu.bank k = if k = n then v else Memory.read s.apu.bank k) ∧
        (n ≤ 0x400F ∨ n = 0x4015 → busRead a t = .done v t)) ∧
    (0x4018 ≤ n → n ≤ 0x7FFF → busWrite a v s = .done () s)

/-- The controller port (R87, R88), access by access: what a write of $4016 and a read of it do. -/
def Obligations.ControllerPortAccesses : Prop :=
  ∀ (v : Byte) (s : State),
    let sample := Config.buttons s.buttonDraws
    (v.getLsbD 0 = true →
      busWrite 0x4016 v s =
        .done () { s with
          ctl := { s.ctl with latch := sample, strobe := true }, buttonDraws := s.buttonDraws + 1 }) ∧
    (v.getLsbD 0 = false → s.ctl.strobe = true →
      busWrite 0x4016 v s =
        .done () { s with
          ctl := { latch := sample, strobe := false, readBit := 0 }
          buttonDraws := s.buttonDraws + 1 }) ∧
    (v.getLsbD 0 = false → s.ctl.strobe = false → busWrite 0x4016 v s = .done () s) ∧
    (s.ctl.strobe = true →
      busRead 0x4016 s =
        .done (BitVec.ofNat 8 (sample.toNat % 2))
          { s with ctl := { s.ctl with latch := sample }, buttonDraws := s.buttonDraws + 1 }) ∧
    (s.ctl.strobe = false → (h : s.ctl.readBit.val < 8) →
      busRead 0x4016 s =
        .done (BitVec.ofNat 8 (s.ctl.latch.toNat / 2 ^ s.ctl.readBit.val % 2))
          { s with ctl := { s.ctl with readBit := ⟨s.ctl.readBit.val + 1, by omega⟩ } }) ∧
    (s.ctl.strobe = false → s.ctl.readBit.val = 8 → busRead 0x4016 s = .done 1 s)

/-- The controller protocol as a whole (R88): after a write with bit 0 set and one with it clear, eight
reads return the sampled buttons least significant first, and every later read returns 1. -/
def Obligations.ControllerReadsButtonsInOrder : Prop :=
  ∀ (v1 v0 : Byte) (s : State) (n : Nat), v1.getLsbD 0 = true → v0.getLsbD 0 = false →
    ∃ t, busWrites [(0x4016, v1), (0x4016, v0)] s = some t ∧
      let buttons := Config.buttons (s.buttonDraws + 1)
      controllerReads (8 + n) t =
        ((List.range 8).map fun k => BitVec.ofNat 8 (buttons.toNat / 2 ^ k % 2)) ++
          List.replicate n 1

/-- The PRG windows of NROM and MMC1 (R91, R92, R97): which byte of the image an address reads, and
that a read of an unmapped window is a draw. -/
def Obligations.PrgWindowsOfTheFixedMapping : Prop :=
  ∀ (a : Addr) (s : State), 0x8000 ≤ a.toNat → (∀ k, s.mapper ≠ .unsupported k) →
    let byte (k : Nat) : Access Byte := .done (Memory.read s.cart.prg k) s
    (0xC000 ≤ a.toNat → s.cart.prgBanks = 1 → busRead a s = byte (a.toNat - 0xC000)) ∧
    (a.toNat < 0xC000 → s.cart.prgBanks = 1 →
      busRead a s =
        match s.params.nrom16Low with
        | .mirror => byte (a.toNat - 0x8000)
        | .unmapped => .done (Config.draw s.draws) { s with draws := s.draws + 1 }) ∧
    (a.toNat < 0xC000 → 2 ≤ s.cart.prgBanks → busRead a s = byte (a.toNat - 0x8000)) ∧
    (0xC000 ≤ a.toNat → 2 ≤ s.cart.prgBanks →
      busRead a s =
        match s.params.nrom32Upper with
        | .secondHalf => byte (0x4000 + (a.toNat - 0xC000))
        | .firstHalf => byte (a.toNat - 0xC000)) ∧
    (s.mapper = .nrom → ∀ v, busWrite a v s = .done () s)

/-- Cartridge space with no mapping (R89, R98): a read of $4020-$7FFF, and of $8000-$FFFF under an
unsupported mapper, is a fresh draw and changes nothing else; a write has no effect. -/
def Obligations.UnmappedCartridgeSpaceDraws : Prop :=
  ∀ (a : Addr) (s : State),
    (0x4020 ≤ a.toNat ∧ a.toNat ≤ 0x7FFF) ∨ (0x8000 ≤ a.toNat ∧ ∃ k, s.mapper = .unsupported k) →
    busRead a s = .done (Config.draw s.draws) { s with draws := s.draws + 1 } ∧
    ∀ v, busWrite a v s = .done () s

/-- The MMC1 serial protocol (R93-R96): a write with bit 7 set resets the shift register and forces
control bits 3 and 2; from the sentinel, four serial writes shift their low bits in from the top, and
the fifth latches the five bits, first written lowest, into the register its own address selects. -/
def Obligations.Mmc1SerialProtocol : Prop :=
  ∀ (a0 a1 a2 a3 a4 : Addr) (v0 v1 v2 v3 v4 : Byte) (s : State) (r : Mmc1), s.mapper = .mmc1 r →
    (∀ a ∈ [a0, a1, a2, a3, a4], 0x8000 ≤ a.toNat) →
    let up (v : Byte) (k : Nat) : Nat := v.toNat % 2 * 2 ^ k
    let shifted (n : Nat) : Option State := some (s.setMapper (.mmc1 { r with shift := BitVec.ofNat 5 n }))
    (v0.getLsbD 7 = true →
      busWrite a0 v0 s =
        .done () (s.setMapper (.mmc1 { r with shift := 0x10, control := r.control ||| 0x0C }))) ∧
    ((∀ v ∈ [v0, v1, v2, v3, v4], v.getLsbD 7 = false) → r.shift = 0x10 →
      busWrites [(a0, v0)] s = shifted (up v0 4 + 8) ∧
      busWrites [(a0, v0), (a1, v1)] s = shifted (up v1 4 + up v0 3 + 4) ∧
      busWrites [(a0, v0), (a1, v1), (a2, v2)] s = shifted (up v2 4 + up v1 3 + up v0 2 + 2) ∧
      busWrites [(a0, v0), (a1, v1), (a2, v2), (a3, v3)] s =
        shifted (up v3 4 + up v2 3 + up v1 2 + up v0 1 + 1) ∧
      let full : BitVec 5 := BitVec.ofNat 5 (up v4 4 + up v3 3 + up v2 2 + up v1 1 + up v0 0)
      busWrites [(a0, v0), (a1, v1), (a2, v2), (a3, v3), (a4, v4)] s =
        some (s.setMapper (.mmc1
          { shift := 0x10
            control := if a4.toNat < 0xA000 then full else r.control
            chr0 := if 0xA000 ≤ a4.toNat ∧ a4.toNat < 0xC000 then full else r.chr0
            chr1 := if 0xC000 ≤ a4.toNat ∧ a4.toNat < 0xE000 then full else r.chr1
            prg := if 0xE000 ≤ a4.toNat then full else r.prg })))

/-- The MMC1 registers are unobservable (R41, R97, R307): two machines that differ only in them stay
so through every step, stop for the same reason, and differ in nothing else. -/
def Obligations.Mmc1RegistersAreUnobservable : Prop :=
  ∀ (s t : State), s.mmc1Twin t → outcomeTwin (step s) (step t)

/-! ### The NMI -/

/-- The CPU step (R260, R261, R266, R271): with cycles remaining it only decrements their counter and the
line is not sampled; with none, the line is PPUCTRL bit 7 AND PPUSTATUS bit 7, `nmi_prev` takes it, the
NMI is entered exactly on a rising edge, and an instruction is fetched and executed either way. -/
def Obligations.NmiIsTakenOnTheRisingEdge : Prop :=
  ∀ (s : State),
    (∀ n, s.cyclesRemaining = n + 1 → cpuStep s = .next { s with cyclesRemaining := n }) ∧
    (s.cyclesRemaining = 0 →
      let line := s.ppu.ctrl.getLsbD 7 && s.ppu.status.getLsbD 7
      let u := { s with nmiPrev := line }
      cpuStep s =
        if line = true ∧ s.nmiPrev = false then (fetch (nmiEntry u)).andThen execute
        else (fetch u).andThen execute)

/-- NMI entry (R262): PC high byte, PC low byte and the status byte with bit 5 set and bit 4 clear are
pushed; I is set; PC is the word read at the vector $FFFA; nothing else changes but the count of draws
if the vector is drawn. It cannot fault. -/
def Obligations.NmiEntryPushesThenVectors : Prop :=
  ∀ (s : State),
    let t := nmiEntry s
    ∃ w u, busRead16 0xFFFA s = .done w u ∧
      t = { s with
            sp := s.sp - 3, ram := t.ram, p := { s.p with i := true }, pc := w
            draws := u.draws } ∧
      ∀ k, Memory.read t.ram k =
        if k = 0x100 + s.sp.toNat then hi s.pc
        else if k = 0x100 + (s.sp - 1).toNat then lo s.pc
        else if k = 0x100 + (s.sp - 2).toNat then
          BitVec.ofNat 8
            (128 * s.p.n.toNat + 64 * s.p.v.toNat + 32 + 8 * s.p.d.toNat + 4 * s.p.i.toNat +
              2 * s.p.z.toNat + s.p.c.toNat)
        else Memory.read s.ram k

/-- RTI undoes an NMI entry (R265): after the entry, RTI at any PC restores PC, SP and all six flags. -/
def Obligations.RtiUndoesTheNmiEntry : Prop :=
  ∀ (s : State) (pc : Addr),
    ∃ u, exec .rti { nmiEntry s with pc := pc } = .next u ∧
      u.pc = s.pc ∧ u.sp = s.sp ∧ u.p = s.p ∧ u.nmiPrev = s.nmiPrev

/-! ### The clock, faults, reset -/

/-- The tick (R270, R275, R276): nothing on a halted machine; otherwise the video step, which writes only
PPUSTATUS; on a multiple of 3 the CPU step then the audio step, which only clears reload flags; then
the counter rises by 1. A fault of the CPU step abandons the tick. -/
def Obligations.TickOrdersTheAgents : Prop :=
  ∀ (s : State),
    (s.halted ≠ none → step s = .next s) ∧
    (s.halted = none → s.tick % 3 ≠ 0 →
      step s = .next { videoStep s with tick := s.tick + 1 }) ∧
    (s.halted = none → s.tick % 3 = 0 →
      (∀ t, cpuStep (videoStep s) = .next t →
        step s = .next { audioStep t with tick := t.tick + 1 }) ∧
      ∀ f, cpuStep (videoStep s) = .fault f → step s = .fault f) ∧
    videoStep s =
      { s with
        ppu := { s.ppu with status := (videoStep s).ppu.status }, video := (videoStep s).video } ∧
    audioStep s =
      { s with
        apu := { s.apu with
          reloadLinear := (audioStep s).apu.reloadLinear
          reloadNoise := (audioStep s).apu.reloadNoise }
        audio := (audioStep s).audio } ∧
    (s.apu.reloadLinear = false → (audioStep s).apu.reloadLinear = false) ∧
    (s.apu.reloadNoise = false → (audioStep s).apu.reloadNoise = false)

/-- What a fault leaves (R250, R256): `halted` holds its reason, the tick, the instruction count, the
remaining cycles, the stall and the cartridge are as before the step, only a running machine that
started an instruction faults, and the machine left behind stands still for ever. -/
def Obligations.FaultsHaltTheMachine : Prop :=
  ∀ (s : State) (f : Fault), step s = .fault f →
    s.startsInstruction ∧ f.final.halted = some f.reason ∧ f.final.tick = s.tick ∧
    f.final.instrCount = s.instrCount ∧ f.final.cyclesRemaining = s.cyclesRemaining ∧
    f.final.extraCycles = s.extraCycles ∧ f.final.cart = s.cart ∧
    ∀ n, runTicks n f.final = .next f.final

/-- Instruction timing (R310): after a step that executes an instruction and leaves n remaining cycles,
the next instruction starts exactly 3 * (n + 1) ticks after that step's tick; until then only the
external units' writes, the tick and the counter change. -/
def Obligations.InstructionTimingInTicks : Prop :=
  ∀ (s t : State), s.startsInstruction → step s = .next t →
    ∃ u, runTicks (3 * t.cyclesRemaining + 2) t = .next u ∧ u.startsInstruction ∧
      u.tick = s.tick + 3 * (t.cyclesRemaining + 1) ∧
      u = { t with
            cyclesRemaining := 0, tick := u.tick, video := u.video, audio := u.audio
            ppu := { t.ppu with status := u.ppu.status }
            apu := { t.apu with
              reloadLinear := u.apu.reloadLinear, reloadNoise := u.apu.reloadNoise } } ∧
      ∀ k, k < 3 * t.cyclesRemaining + 2 → ∃ w, runTicks k t = .next w ∧ ¬w.startsInstruction

/-- Reset (R290, R291) for every cartridge, every parameter and every value the spec leaves unspecified:
the state table, with PC read from the vector at $FFFC through the mapper. -/
def Obligations.ResetStateTable : Prop :=
  ∀ (cart : Cartridge) (params : Params) (r : ResetValues),
    let s := State.powerOn cart params r
    s.a = r.a ∧ s.x = r.x ∧ s.y = r.y ∧ s.sp = r.sp ∧ s.p = Flags.ofByte r.p ∧
    s.ram = r.ram ∧ s.ppu.oam = r.oam ∧ s.ppu.nt = r.nt ∧ s.ppu.pal = r.pal ∧ s.ppu.chrRam = r.chrRam ∧
    s.ppu.ctrl = 0 ∧ s.ppu.mask = 0 ∧ s.ppu.status = 0 ∧ s.ppu.oamAddr = 0 ∧
    s.ppu.vramAddr = 0 ∧ s.ppu.readBuffer = 0 ∧ s.ppu.scroll0 = 0 ∧ s.ppu.scroll1 = 0 ∧
    s.ppu.addrToggle = false ∧ s.ppu.scrollToggle = false ∧
    (∀ k, Memory.read s.apu.bank k = 0) ∧ s.apu.reloadLinear = false ∧ s.apu.reloadNoise = false ∧
    s.ctl.latch = 0 ∧ s.ctl.strobe = false ∧ s.ctl.readBit = 0 ∧
    (cart.mapper = 0 → s.mapper = .nrom) ∧
    (cart.mapper = 1 →
      s.mapper = .mmc1 { shift := 0x10, control := 0, chr0 := 0, chr1 := 0, prg := 0 }) ∧
    (2 ≤ cart.mapper → s.mapper = .unsupported cart.mapper) ∧
    s.cyclesRemaining = 0 ∧ s.extraCycles = 0 ∧ s.nmiPrev = false ∧ s.instrCount = 0 ∧
    s.tick = 0 ∧ s.halted = none ∧ s.cart = cart ∧ s.params = params ∧
    (cart.mapper ≤ 1 → busRead16 0xFFFC s = .done s.pc s) ∧
    (2 ≤ cart.mapper →
      s.pc = BitVec.ofNat 16
        ((Config.draw (r.draws + 1)).toNat * 256 + (Config.draw r.draws).toNat))

/-- The model's choice (log entries 1 to 8): `State.reset` is the reset of the blank cartridge with the
default parameters and the named values, and the invariant holds of it. -/
def Obligations.ResetMeetsTheInvariant : Prop :=
  State.reset = State.powerOn Cartridge.blank Params.default ResetValues.zero ∧ State.reset.Inv

/-- Every step keeps the invariant, from every state that meets it. -/
def Obligations.EveryStepKeepsTheInvariant : Prop :=
  ∀ (s t : State), s.Inv → step s = .next t → t.Inv

/-- Memories in canonical form that read alike are equal lists, and a write keeps the form. -/
def Obligations.CanonicalMemoriesAreEqualWhenTheyReadAlike : Prop :=
  (∀ (m n : Memory), Memory.wf m = true → Memory.wf n = true →
    (∀ k, Memory.read m k = Memory.read n k) → m = n) ∧
  ∀ (m : Memory) (k : Nat) (v : Byte), Memory.wf m = true → Memory.wf (Memory.write m k v) = true
end

