-- ==== Sys2Proof/Laws/Memory.lean ====
section
/-! SUPPORT. The laws of the byte store: read after write, and the canonical form kept by every
operation. -/

namespace Sys2Proof.Memory

theorem read_erase (m : Memory) (i j : Nat) :
    read (erase m i) j = if i = j then unlisted else read m j := by
  induction m with
  | nil => simp [erase, read]
  | cons c rest ih =>
    obtain ⟨k, v⟩ := c
    by_cases hk : k = i
    · subst hk
      by_cases hj : k = j
      · subst hj
        simpa [erase] using ih
      · simp [erase, read, ih, hj]
    · by_cases hj : k = j
      · subst hj
        simp [erase, read, hk, Ne.symm hk]
      · simp [erase, read, ih, hk, hj]

theorem read_insert_of_ne (m : Memory) (i j : Nat) (v : Byte) (h : i ≠ j) :
    read (insert m i v) j = read m j := by
  induction m with
  | nil => simp [insert, read, h]
  | cons c rest ih =>
    obtain ⟨k, w⟩ := c
    simp only [insert]
    split <;> simp [read, h, ih]

theorem read_insert_same (m : Memory) (i : Nat) (v : Byte) (h : ∀ c ∈ m, c.1 ≠ i) :
    read (insert m i v) i = v := by
  induction m with
  | nil => simp [insert, read]
  | cons c rest ih =>
    obtain ⟨k, w⟩ := c
    have hk : k ≠ i := h (k, w) (by simp)
    simp only [insert]
    split
    · simp [read]
    · simp [read, hk, ih fun c hc => h c (by simp [hc])]

theorem mem_erase {m : Memory} {i : Nat} {c : Host.Cell} (h : c ∈ erase m i) : c ∈ m ∧ c.1 ≠ i := by
  induction m with
  | nil => simp [erase] at h
  | cons d rest ih =>
    obtain ⟨k, v⟩ := d
    simp only [erase] at h
    split at h
    · have := ih h
      simp [this]
    · rcases List.mem_cons.1 h with rfl | h
      · simp [*]
      · have := ih h
        simp [this]

theorem mem_insert {m : Memory} {i : Nat} {v : Byte} {c : Host.Cell} (h : c ∈ insert m i v) :
    c = (i, v) ∨ c ∈ m := by
  induction m with
  | nil => simpa [insert] using h
  | cons d rest ih =>
    obtain ⟨k, w⟩ := d
    simp only [insert] at h
    split at h
    · simpa using h
    · rcases List.mem_cons.1 h with rfl | h
      · simp
      · rcases ih h with h | h <;> simp [h]

/-- A write can only add its own cell. -/
theorem mem_write {m : Memory} {i : Nat} {v : Byte} {c : Host.Cell} (h : c ∈ write m i v) :
    (c = (i, v) ∧ v ≠ unlisted) ∨ c ∈ m := by
  simp only [write] at h
  split at h
  · exact .inr (mem_erase h).1
  · rcases mem_insert h with h | h
    · exact .inl ⟨h, ‹_›⟩
    · exact .inr (mem_erase h).1

/-- Reading the byte just written gives the value written. -/
@[simp] theorem read_write_same (m : Memory) (i : Nat) (v : Byte) : read (write m i v) i = v := by
  simp only [write]
  split
  · simp [read_erase, *]
  · exact read_insert_same _ _ _ fun c hc => (mem_erase hc).2

/-- A write leaves every other byte alone. -/
theorem read_write_of_ne (m : Memory) {i j : Nat} (v : Byte) (h : i ≠ j) :
    read (write m i v) j = read m j := by
  simp only [write]
  split
  · simp [read_erase, h]
  · rw [read_insert_of_ne _ _ _ _ h, read_erase, if_neg h]

/-- The two laws in one: what a byte reads as after a write. -/
theorem read_write (m : Memory) (i j : Nat) (v : Byte) :
    read (write m i v) j = if i = j then v else read m j := by
  split
  · subst_vars; simp
  · exact read_write_of_ne m v ‹_›

theorem rising_iff (m : Memory) : rising m = true ↔ m.Pairwise fun c d => c.1 < d.1 := by
  induction m with
  | nil => simp [rising]
  | cons c rest ih =>
    obtain ⟨i, v⟩ := c
    cases rest with
    | nil => simp [rising]
    | cons d rest =>
      obtain ⟨j, w⟩ := d
      simp only [rising, Bool.and_eq_true, decide_eq_true_eq, ih]
      constructor
      · rintro ⟨hij, hp⟩
        refine List.pairwise_cons.2 ⟨fun c hc => ?_, hp⟩
        rcases List.mem_cons.1 hc with rfl | hc
        · exact hij
        · exact Nat.lt_trans hij ((List.pairwise_cons.1 hp).1 c hc)
      · intro hp
        exact ⟨(List.pairwise_cons.1 hp).1 (j, w) (by simp), (List.pairwise_cons.1 hp).2⟩

theorem wf_iff (m : Memory) :
    wf m = true ↔ (m.Pairwise fun c d => c.1 < d.1) ∧ ∀ c ∈ m, c.2 ≠ unlisted := by
  simp [wf, rising_iff]

theorem below_iff (n : Nat) (m : Memory) : below n m = true ↔ ∀ c ∈ m, c.1 < n := by
  simp [below]

theorem pairwise_erase {m : Memory} (h : m.Pairwise fun c d => c.1 < d.1) (i : Nat) :
    (erase m i).Pairwise fun c d => c.1 < d.1 := by
  induction m with
  | nil => simp [erase]
  | cons c rest ih =>
    obtain ⟨k, v⟩ := c
    obtain ⟨hk, hr⟩ := List.pairwise_cons.1 h
    simp only [erase]
    split
    · exact ih hr
    · exact List.pairwise_cons.2 ⟨fun c hc => hk c (mem_erase hc).1, ih hr⟩

theorem pairwise_insert {m : Memory} (h : m.Pairwise fun c d => c.1 < d.1) (i : Nat) (v : Byte)
    (hi : ∀ c ∈ m, c.1 ≠ i) : (insert m i v).Pairwise fun c d => c.1 < d.1 := by
  induction m with
  | nil => simp [insert]
  | cons c rest ih =>
    obtain ⟨k, w⟩ := c
    obtain ⟨hk, hr⟩ := List.pairwise_cons.1 h
    have hki : k ≠ i := hi (k, w) (by simp)
    simp only [insert]
    split
    · rename_i hlt
      refine List.pairwise_cons.2 ⟨fun c hc => ?_, h⟩
      rcases List.mem_cons.1 hc with rfl | hc
      · exact hlt
      · exact Nat.lt_trans hlt (hk c hc)
    · refine List.pairwise_cons.2 ⟨fun c hc => ?_, ih hr fun c hc => hi c (by simp [hc])⟩
      rcases mem_insert hc with rfl | hc
      · show k < i
        omega
      · exact hk c hc

/-- A write keeps the canonical form. -/
theorem write_wf {m : Memory} (h : wf m = true) (i : Nat) (v : Byte) : wf (write m i v) = true := by
  obtain ⟨hp, hv⟩ := (wf_iff m).1 h
  refine (wf_iff _).2 ⟨?_, fun c hc => ?_⟩
  · simp only [write]
    split
    · exact pairwise_erase hp i
    · exact pairwise_insert (pairwise_erase hp i) i v fun c hc => (mem_erase hc).2
  · rcases mem_write hc with ⟨rfl, hne⟩ | hc
    · exact hne
    · exact hv c hc

/-- A write inside the array keeps it inside. -/
theorem write_below {m : Memory} {n i : Nat} (h : below n m = true) (hi : i < n) (v : Byte) :
    below n (write m i v) = true := by
  rw [below_iff] at *
  intro c hc
  rcases mem_write hc with ⟨rfl, -⟩ | hc
  · exact hi
  · exact h c hc

end Sys2Proof.Memory
end

