-- ==== Sys2Proof/Laws/State.lean ====
section
/-! SUPPORT. One lemma per field of State for each named update, so that no proof unfolds an update. -/

namespace Sys2Proof.Machine

variable (s : State)

@[simp] theorem State.setA_a (v : Byte) : (s.setA v).a = v := rfl
@[simp] theorem State.setA_x (v : Byte) : (s.setA v).x = s.x := rfl
@[simp] theorem State.setA_y (v : Byte) : (s.setA v).y = s.y := rfl
@[simp] theorem State.setA_sp (v : Byte) : (s.setA v).sp = s.sp := rfl
@[simp] theorem State.setA_pc (v : Byte) : (s.setA v).pc = s.pc := rfl
@[simp] theorem State.setA_p (v : Byte) : (s.setA v).p = s.p := rfl
@[simp] theorem State.setA_cyclesRemaining (v : Byte) : (s.setA v).cyclesRemaining = s.cyclesRemaining := rfl
@[simp] theorem State.setA_nmiPrev (v : Byte) : (s.setA v).nmiPrev = s.nmiPrev := rfl
@[simp] theorem State.setA_instrCount (v : Byte) : (s.setA v).instrCount = s.instrCount := rfl
@[simp] theorem State.setA_extraCycles (v : Byte) : (s.setA v).extraCycles = s.extraCycles := rfl
@[simp] theorem State.setA_ram (v : Byte) : (s.setA v).ram = s.ram := rfl
@[simp] theorem State.setA_ppu (v : Byte) : (s.setA v).ppu = s.ppu := rfl
@[simp] theorem State.setA_apu (v : Byte) : (s.setA v).apu = s.apu := rfl
@[simp] theorem State.setA_ctl (v : Byte) : (s.setA v).ctl = s.ctl := rfl
@[simp] theorem State.setA_mapper (v : Byte) : (s.setA v).mapper = s.mapper := rfl
@[simp] theorem State.setA_tick (v : Byte) : (s.setA v).tick = s.tick := rfl
@[simp] theorem State.setA_halted (v : Byte) : (s.setA v).halted = s.halted := rfl
@[simp] theorem State.setA_cart (v : Byte) : (s.setA v).cart = s.cart := rfl
@[simp] theorem State.setA_params (v : Byte) : (s.setA v).params = s.params := rfl
@[simp] theorem State.setA_draws (v : Byte) : (s.setA v).draws = s.draws := rfl
@[simp] theorem State.setA_buttonDraws (v : Byte) : (s.setA v).buttonDraws = s.buttonDraws := rfl
@[simp] theorem State.setA_video (v : Byte) : (s.setA v).video = s.video := rfl
@[simp] theorem State.setA_audio (v : Byte) : (s.setA v).audio = s.audio := rfl

@[simp] theorem State.setX_a (v : Byte) : (s.setX v).a = s.a := rfl
@[simp] theorem State.setX_x (v : Byte) : (s.setX v).x = v := rfl
@[simp] theorem State.setX_y (v : Byte) : (s.setX v).y = s.y := rfl
@[simp] theorem State.setX_sp (v : Byte) : (s.setX v).sp = s.sp := rfl
@[simp] theorem State.setX_pc (v : Byte) : (s.setX v).pc = s.pc := rfl
@[simp] theorem State.setX_p (v : Byte) : (s.setX v).p = s.p := rfl
@[simp] theorem State.setX_cyclesRemaining (v : Byte) : (s.setX v).cyclesRemaining = s.cyclesRemaining := rfl
@[simp] theorem State.setX_nmiPrev (v : Byte) : (s.setX v).nmiPrev = s.nmiPrev := rfl
@[simp] theorem State.setX_instrCount (v : Byte) : (s.setX v).instrCount = s.instrCount := rfl
@[simp] theorem State.setX_extraCycles (v : Byte) : (s.setX v).extraCycles = s.extraCycles := rfl
@[simp] theorem State.setX_ram (v : Byte) : (s.setX v).ram = s.ram := rfl
@[simp] theorem State.setX_ppu (v : Byte) : (s.setX v).ppu = s.ppu := rfl
@[simp] theorem State.setX_apu (v : Byte) : (s.setX v).apu = s.apu := rfl
@[simp] theorem State.setX_ctl (v : Byte) : (s.setX v).ctl = s.ctl := rfl
@[simp] theorem State.setX_mapper (v : Byte) : (s.setX v).mapper = s.mapper := rfl
@[simp] theorem State.setX_tick (v : Byte) : (s.setX v).tick = s.tick := rfl
@[simp] theorem State.setX_halted (v : Byte) : (s.setX v).halted = s.halted := rfl
@[simp] theorem State.setX_cart (v : Byte) : (s.setX v).cart = s.cart := rfl
@[simp] theorem State.setX_params (v : Byte) : (s.setX v).params = s.params := rfl
@[simp] theorem State.setX_draws (v : Byte) : (s.setX v).draws = s.draws := rfl
@[simp] theorem State.setX_buttonDraws (v : Byte) : (s.setX v).buttonDraws = s.buttonDraws := rfl
@[simp] theorem State.setX_video (v : Byte) : (s.setX v).video = s.video := rfl
@[simp] theorem State.setX_audio (v : Byte) : (s.setX v).audio = s.audio := rfl

@[simp] theorem State.setY_a (v : Byte) : (s.setY v).a = s.a := rfl
@[simp] theorem State.setY_x (v : Byte) : (s.setY v).x = s.x := rfl
@[simp] theorem State.setY_y (v : Byte) : (s.setY v).y = v := rfl
@[simp] theorem State.setY_sp (v : Byte) : (s.setY v).sp = s.sp := rfl
@[simp] theorem State.setY_pc (v : Byte) : (s.setY v).pc = s.pc := rfl
@[simp] theorem State.setY_p (v : Byte) : (s.setY v).p = s.p := rfl
@[simp] theorem State.setY_cyclesRemaining (v : Byte) : (s.setY v).cyclesRemaining = s.cyclesRemaining := rfl
@[simp] theorem State.setY_nmiPrev (v : Byte) : (s.setY v).nmiPrev = s.nmiPrev := rfl
@[simp] theorem State.setY_instrCount (v : Byte) : (s.setY v).instrCount = s.instrCount := rfl
@[simp] theorem State.setY_extraCycles (v : Byte) : (s.setY v).extraCycles = s.extraCycles := rfl
@[simp] theorem State.setY_ram (v : Byte) : (s.setY v).ram = s.ram := rfl
@[simp] theorem State.setY_ppu (v : Byte) : (s.setY v).ppu = s.ppu := rfl
@[simp] theorem State.setY_apu (v : Byte) : (s.setY v).apu = s.apu := rfl
@[simp] theorem State.setY_ctl (v : Byte) : (s.setY v).ctl = s.ctl := rfl
@[simp] theorem State.setY_mapper (v : Byte) : (s.setY v).mapper = s.mapper := rfl
@[simp] theorem State.setY_tick (v : Byte) : (s.setY v).tick = s.tick := rfl
@[simp] theorem State.setY_halted (v : Byte) : (s.setY v).halted = s.halted := rfl
@[simp] theorem State.setY_cart (v : Byte) : (s.setY v).cart = s.cart := rfl
@[simp] theorem State.setY_params (v : Byte) : (s.setY v).params = s.params := rfl
@[simp] theorem State.setY_draws (v : Byte) : (s.setY v).draws = s.draws := rfl
@[simp] theorem State.setY_buttonDraws (v : Byte) : (s.setY v).buttonDraws = s.buttonDraws := rfl
@[simp] theorem State.setY_video (v : Byte) : (s.setY v).video = s.video := rfl
@[simp] theorem State.setY_audio (v : Byte) : (s.setY v).audio = s.audio := rfl

@[simp] theorem State.setSp_a (v : Byte) : (s.setSp v).a = s.a := rfl
@[simp] theorem State.setSp_x (v : Byte) : (s.setSp v).x = s.x := rfl
@[simp] theorem State.setSp_y (v : Byte) : (s.setSp v).y = s.y := rfl
@[simp] theorem State.setSp_sp (v : Byte) : (s.setSp v).sp = v := rfl
@[simp] theorem State.setSp_pc (v : Byte) : (s.setSp v).pc = s.pc := rfl
@[simp] theorem State.setSp_p (v : Byte) : (s.setSp v).p = s.p := rfl
@[simp] theorem State.setSp_cyclesRemaining (v : Byte) : (s.setSp v).cyclesRemaining = s.cyclesRemaining := rfl
@[simp] theorem State.setSp_nmiPrev (v : Byte) : (s.setSp v).nmiPrev = s.nmiPrev := rfl
@[simp] theorem State.setSp_instrCount (v : Byte) : (s.setSp v).instrCount = s.instrCount := rfl
@[simp] theorem State.setSp_extraCycles (v : Byte) : (s.setSp v).extraCycles = s.extraCycles := rfl
@[simp] theorem State.setSp_ram (v : Byte) : (s.setSp v).ram = s.ram := rfl
@[simp] theorem State.setSp_ppu (v : Byte) : (s.setSp v).ppu = s.ppu := rfl
@[simp] theorem State.setSp_apu (v : Byte) : (s.setSp v).apu = s.apu := rfl
@[simp] theorem State.setSp_ctl (v : Byte) : (s.setSp v).ctl = s.ctl := rfl
@[simp] theorem State.setSp_mapper (v : Byte) : (s.setSp v).mapper = s.mapper := rfl
@[simp] theorem State.setSp_tick (v : Byte) : (s.setSp v).tick = s.tick := rfl
@[simp] theorem State.setSp_halted (v : Byte) : (s.setSp v).halted = s.halted := rfl
@[simp] theorem State.setSp_cart (v : Byte) : (s.setSp v).cart = s.cart := rfl
@[simp] theorem State.setSp_params (v : Byte) : (s.setSp v).params = s.params := rfl
@[simp] theorem State.setSp_draws (v : Byte) : (s.setSp v).draws = s.draws := rfl
@[simp] theorem State.setSp_buttonDraws (v : Byte) : (s.setSp v).buttonDraws = s.buttonDraws := rfl
@[simp] theorem State.setSp_video (v : Byte) : (s.setSp v).video = s.video := rfl
@[simp] theorem State.setSp_audio (v : Byte) : (s.setSp v).audio = s.audio := rfl

@[simp] theorem State.setPc_a (v : Addr) : (s.setPc v).a = s.a := rfl
@[simp] theorem State.setPc_x (v : Addr) : (s.setPc v).x = s.x := rfl
@[simp] theorem State.setPc_y (v : Addr) : (s.setPc v).y = s.y := rfl
@[simp] theorem State.setPc_sp (v : Addr) : (s.setPc v).sp = s.sp := rfl
@[simp] theorem State.setPc_pc (v : Addr) : (s.setPc v).pc = v := rfl
@[simp] theorem State.setPc_p (v : Addr) : (s.setPc v).p = s.p := rfl
@[simp] theorem State.setPc_cyclesRemaining (v : Addr) : (s.setPc v).cyclesRemaining = s.cyclesRemaining := rfl
@[simp] theorem State.setPc_nmiPrev (v : Addr) : (s.setPc v).nmiPrev = s.nmiPrev := rfl
@[simp] theorem State.setPc_instrCount (v : Addr) : (s.setPc v).instrCount = s.instrCount := rfl
@[simp] theorem State.setPc_extraCycles (v : Addr) : (s.setPc v).extraCycles = s.extraCycles := rfl
@[simp] theorem State.setPc_ram (v : Addr) : (s.setPc v).ram = s.ram := rfl
@[simp] theorem State.setPc_ppu (v : Addr) : (s.setPc v).ppu = s.ppu := rfl
@[simp] theorem State.setPc_apu (v : Addr) : (s.setPc v).apu = s.apu := rfl
@[simp] theorem State.setPc_ctl (v : Addr) : (s.setPc v).ctl = s.ctl := rfl
@[simp] theorem State.setPc_mapper (v : Addr) : (s.setPc v).mapper = s.mapper := rfl
@[simp] theorem State.setPc_tick (v : Addr) : (s.setPc v).tick = s.tick := rfl
@[simp] theorem State.setPc_halted (v : Addr) : (s.setPc v).halted = s.halted := rfl
@[simp] theorem State.setPc_cart (v : Addr) : (s.setPc v).cart = s.cart := rfl
@[simp] theorem State.setPc_params (v : Addr) : (s.setPc v).params = s.params := rfl
@[simp] theorem State.setPc_draws (v : Addr) : (s.setPc v).draws = s.draws := rfl
@[simp] theorem State.setPc_buttonDraws (v : Addr) : (s.setPc v).buttonDraws = s.buttonDraws := rfl
@[simp] theorem State.setPc_video (v : Addr) : (s.setPc v).video = s.video := rfl
@[simp] theorem State.setPc_audio (v : Addr) : (s.setPc v).audio = s.audio := rfl

@[simp] theorem State.setP_a (v : Flags) : (s.setP v).a = s.a := rfl
@[simp] theorem State.setP_x (v : Flags) : (s.setP v).x = s.x := rfl
@[simp] theorem State.setP_y (v : Flags) : (s.setP v).y = s.y := rfl
@[simp] theorem State.setP_sp (v : Flags) : (s.setP v).sp = s.sp := rfl
@[simp] theorem State.setP_pc (v : Flags) : (s.setP v).pc = s.pc := rfl
@[simp] theorem State.setP_p (v : Flags) : (s.setP v).p = v := rfl
@[simp] theorem State.setP_cyclesRemaining (v : Flags) : (s.setP v).cyclesRemaining = s.cyclesRemaining := rfl
@[simp] theorem State.setP_nmiPrev (v : Flags) : (s.setP v).nmiPrev = s.nmiPrev := rfl
@[simp] theorem State.setP_instrCount (v : Flags) : (s.setP v).instrCount = s.instrCount := rfl
@[simp] theorem State.setP_extraCycles (v : Flags) : (s.setP v).extraCycles = s.extraCycles := rfl
@[simp] theorem State.setP_ram (v : Flags) : (s.setP v).ram = s.ram := rfl
@[simp] theorem State.setP_ppu (v : Flags) : (s.setP v).ppu = s.ppu := rfl
@[simp] theorem State.setP_apu (v : Flags) : (s.setP v).apu = s.apu := rfl
@[simp] theorem State.setP_ctl (v : Flags) : (s.setP v).ctl = s.ctl := rfl
@[simp] theorem State.setP_mapper (v : Flags) : (s.setP v).mapper = s.mapper := rfl
@[simp] theorem State.setP_tick (v : Flags) : (s.setP v).tick = s.tick := rfl
@[simp] theorem State.setP_halted (v : Flags) : (s.setP v).halted = s.halted := rfl
@[simp] theorem State.setP_cart (v : Flags) : (s.setP v).cart = s.cart := rfl
@[simp] theorem State.setP_params (v : Flags) : (s.setP v).params = s.params := rfl
@[simp] theorem State.setP_draws (v : Flags) : (s.setP v).draws = s.draws := rfl
@[simp] theorem State.setP_buttonDraws (v : Flags) : (s.setP v).buttonDraws = s.buttonDraws := rfl
@[simp] theorem State.setP_video (v : Flags) : (s.setP v).video = s.video := rfl
@[simp] theorem State.setP_audio (v : Flags) : (s.setP v).audio = s.audio := rfl

@[simp] theorem State.setRam_a (v : Memory) : (s.setRam v).a = s.a := rfl
@[simp] theorem State.setRam_x (v : Memory) : (s.setRam v).x = s.x := rfl
@[simp] theorem State.setRam_y (v : Memory) : (s.setRam v).y = s.y := rfl
@[simp] theorem State.setRam_sp (v : Memory) : (s.setRam v).sp = s.sp := rfl
@[simp] theorem State.setRam_pc (v : Memory) : (s.setRam v).pc = s.pc := rfl
@[simp] theorem State.setRam_p (v : Memory) : (s.setRam v).p = s.p := rfl
@[simp] theorem State.setRam_cyclesRemaining (v : Memory) : (s.setRam v).cyclesRemaining = s.cyclesRemaining := rfl
@[simp] theorem State.setRam_nmiPrev (v : Memory) : (s.setRam v).nmiPrev = s.nmiPrev := rfl
@[simp] theorem State.setRam_instrCount (v : Memory) : (s.setRam v).instrCount = s.instrCount := rfl
@[simp] theorem State.setRam_extraCycles (v : Memory) : (s.setRam v).extraCycles = s.extraCycles := rfl
@[simp] theorem State.setRam_ram (v : Memory) : (s.setRam v).ram = v := rfl
@[simp] theorem State.setRam_ppu (v : Memory) : (s.setRam v).ppu = s.ppu := rfl
@[simp] theorem State.setRam_apu (v : Memory) : (s.setRam v).apu = s.apu := rfl
@[simp] theorem State.setRam_ctl (v : Memory) : (s.setRam v).ctl = s.ctl := rfl
@[simp] theorem State.setRam_mapper (v : Memory) : (s.setRam v).mapper = s.mapper := rfl
@[simp] theorem State.setRam_tick (v : Memory) : (s.setRam v).tick = s.tick := rfl
@[simp] theorem State.setRam_halted (v : Memory) : (s.setRam v).halted = s.halted := rfl
@[simp] theorem State.setRam_cart (v : Memory) : (s.setRam v).cart = s.cart := rfl
@[simp] theorem State.setRam_params (v : Memory) : (s.setRam v).params = s.params := rfl
@[simp] theorem State.setRam_draws (v : Memory) : (s.setRam v).draws = s.draws := rfl
@[simp] theorem State.setRam_buttonDraws (v : Memory) : (s.setRam v).buttonDraws = s.buttonDraws := rfl
@[simp] theorem State.setRam_video (v : Memory) : (s.setRam v).video = s.video := rfl
@[simp] theorem State.setRam_audio (v : Memory) : (s.setRam v).audio = s.audio := rfl

@[simp] theorem State.setPpu_a (v : Ppu) : (s.setPpu v).a = s.a := rfl
@[simp] theorem State.setPpu_x (v : Ppu) : (s.setPpu v).x = s.x := rfl
@[simp] theorem State.setPpu_y (v : Ppu) : (s.setPpu v).y = s.y := rfl
@[simp] theorem State.setPpu_sp (v : Ppu) : (s.setPpu v).sp = s.sp := rfl
@[simp] theorem State.setPpu_pc (v : Ppu) : (s.setPpu v).pc = s.pc := rfl
@[simp] theorem State.setPpu_p (v : Ppu) : (s.setPpu v).p = s.p := rfl
@[simp] theorem State.setPpu_cyclesRemaining (v : Ppu) : (s.setPpu v).cyclesRemaining = s.cyclesRemaining := rfl
@[simp] theorem State.setPpu_nmiPrev (v : Ppu) : (s.setPpu v).nmiPrev = s.nmiPrev := rfl
@[simp] theorem State.setPpu_instrCount (v : Ppu) : (s.setPpu v).instrCount = s.instrCount := rfl
@[simp] theorem State.setPpu_extraCycles (v : Ppu) : (s.setPpu v).extraCycles = s.extraCycles := rfl
@[simp] theorem State.setPpu_ram (v : Ppu) : (s.setPpu v).ram = s.ram := rfl
@[simp] theorem State.setPpu_ppu (v : Ppu) : (s.setPpu v).ppu = v := rfl
@[simp] theorem State.setPpu_apu (v : Ppu) : (s.setPpu v).apu = s.apu := rfl
@[simp] theorem State.setPpu_ctl (v : Ppu) : (s.setPpu v).ctl = s.ctl := rfl
@[simp] theorem State.setPpu_mapper (v : Ppu) : (s.setPpu v).mapper = s.mapper := rfl
@[simp] theorem State.setPpu_tick (v : Ppu) : (s.setPpu v).tick = s.tick := rfl
@[simp] theorem State.setPpu_halted (v : Ppu) : (s.setPpu v).halted = s.halted := rfl
@[simp] theorem State.setPpu_cart (v : Ppu) : (s.setPpu v).cart = s.cart := rfl
@[simp] theorem State.setPpu_params (v : Ppu) : (s.setPpu v).params = s.params := rfl
@[simp] theorem State.setPpu_draws (v : Ppu) : (s.setPpu v).draws = s.draws := rfl
@[simp] theorem State.setPpu_buttonDraws (v : Ppu) : (s.setPpu v).buttonDraws = s.buttonDraws := rfl
@[simp] theorem State.setPpu_video (v : Ppu) : (s.setPpu v).video = s.video := rfl
@[simp] theorem State.setPpu_audio (v : Ppu) : (s.setPpu v).audio = s.audio := rfl

@[simp] theorem State.setApu_a (v : Apu) : (s.setApu v).a = s.a := rfl
@[simp] theorem State.setApu_x (v : Apu) : (s.setApu v).x = s.x := rfl
@[simp] theorem State.setApu_y (v : Apu) : (s.setApu v).y = s.y := rfl
@[simp] theorem State.setApu_sp (v : Apu) : (s.setApu v).sp = s.sp := rfl
@[simp] theorem State.setApu_pc (v : Apu) : (s.setApu v).pc = s.pc := rfl
@[simp] theorem State.setApu_p (v : Apu) : (s.setApu v).p = s.p := rfl
@[simp] theorem State.setApu_cyclesRemaining (v : Apu) : (s.setApu v).cyclesRemaining = s.cyclesRemaining := rfl
@[simp] theorem State.setApu_nmiPrev (v : Apu) : (s.setApu v).nmiPrev = s.nmiPrev := rfl
@[simp] theorem State.setApu_instrCount (v : Apu) : (s.setApu v).instrCount = s.instrCount := rfl
@[simp] theorem State.setApu_extraCycles (v : Apu) : (s.setApu v).extraCycles = s.extraCycles := rfl
@[simp] theorem State.setApu_ram (v : Apu) : (s.setApu v).ram = s.ram := rfl
@[simp] theorem State.setApu_ppu (v : Apu) : (s.setApu v).ppu = s.ppu := rfl
@[simp] theorem State.setApu_apu (v : Apu) : (s.setApu v).apu = v := rfl
@[simp] theorem State.setApu_ctl (v : Apu) : (s.setApu v).ctl = s.ctl := rfl
@[simp] theorem State.setApu_mapper (v : Apu) : (s.setApu v).mapper = s.mapper := rfl
@[simp] theorem State.setApu_tick (v : Apu) : (s.setApu v).tick = s.tick := rfl
@[simp] theorem State.setApu_halted (v : Apu) : (s.setApu v).halted = s.halted := rfl
@[simp] theorem State.setApu_cart (v : Apu) : (s.setApu v).cart = s.cart := rfl
@[simp] theorem State.setApu_params (v : Apu) : (s.setApu v).params = s.params := rfl
@[simp] theorem State.setApu_draws (v : Apu) : (s.setApu v).draws = s.draws := rfl
@[simp] theorem State.setApu_buttonDraws (v : Apu) : (s.setApu v).buttonDraws = s.buttonDraws := rfl
@[simp] theorem State.setApu_video (v : Apu) : (s.setApu v).video = s.video := rfl
@[simp] theorem State.setApu_audio (v : Apu) : (s.setApu v).audio = s.audio := rfl

@[simp] theorem State.setCtl_a (v : Controller) : (s.setCtl v).a = s.a := rfl
@[simp] theorem State.setCtl_x (v : Controller) : (s.setCtl v).x = s.x := rfl
@[simp] theorem State.setCtl_y (v : Controller) : (s.setCtl v).y = s.y := rfl
@[simp] theorem State.setCtl_sp (v : Controller) : (s.setCtl v).sp = s.sp := rfl
@[simp] theorem State.setCtl_pc (v : Controller) : (s.setCtl v).pc = s.pc := rfl
@[simp] theorem State.setCtl_p (v : Controller) : (s.setCtl v).p = s.p := rfl
@[simp] theorem State.setCtl_cyclesRemaining (v : Controller) : (s.setCtl v).cyclesRemaining = s.cyclesRemaining := rfl
@[simp] theorem State.setCtl_nmiPrev (v : Controller) : (s.setCtl v).nmiPrev = s.nmiPrev := rfl
@[simp] theorem State.setCtl_instrCount (v : Controller) : (s.setCtl v).instrCount = s.instrCount := rfl
@[simp] theorem State.setCtl_extraCycles (v : Controller) : (s.setCtl v).extraCycles = s.extraCycles := rfl
@[simp] theorem State.setCtl_ram (v : Controller) : (s.setCtl v).ram = s.ram := rfl
@[simp] theorem State.setCtl_ppu (v : Controller) : (s.setCtl v).ppu = s.ppu := rfl
@[simp] theorem State.setCtl_apu (v : Controller) : (s.setCtl v).apu = s.apu := rfl
@[simp] theorem State.setCtl_ctl (v : Controller) : (s.setCtl v).ctl = v := rfl
@[simp] theorem State.setCtl_mapper (v : Controller) : (s.setCtl v).mapper = s.mapper := rfl
@[simp] theorem State.setCtl_tick (v : Controller) : (s.setCtl v).tick = s.tick := rfl
@[simp] theorem State.setCtl_halted (v : Controller) : (s.setCtl v).halted = s.halted := rfl
@[simp] theorem State.setCtl_cart (v : Controller) : (s.setCtl v).cart = s.cart := rfl
@[simp] theorem State.setCtl_params (v : Controller) : (s.setCtl v).params = s.params := rfl
@[simp] theorem State.setCtl_draws (v : Controller) : (s.setCtl v).draws = s.draws := rfl
@[simp] theorem State.setCtl_buttonDraws (v : Controller) : (s.setCtl v).buttonDraws = s.buttonDraws := rfl
@[simp] theorem State.setCtl_video (v : Controller) : (s.setCtl v).video = s.video := rfl
@[simp] theorem State.setCtl_audio (v : Controller) : (s.setCtl v).audio = s.audio := rfl

@[simp] theorem State.setMapper_a (v : Mapper) : (s.setMapper v).a = s.a := rfl
@[simp] theorem State.setMapper_x (v : Mapper) : (s.setMapper v).x = s.x := rfl
@[simp] theorem State.setMapper_y (v : Mapper) : (s.setMapper v).y = s.y := rfl
@[simp] theorem State.setMapper_sp (v : Mapper) : (s.setMapper v).sp = s.sp := rfl
@[simp] theorem State.setMapper_pc (v : Mapper) : (s.setMapper v).pc = s.pc := rfl
@[simp] theorem State.setMapper_p (v : Mapper) : (s.setMapper v).p = s.p := rfl
@[simp] theorem State.setMapper_cyclesRemaining (v : Mapper) : (s.setMapper v).cyclesRemaining = s.cyclesRemaining := rfl
@[simp] theorem State.setMapper_nmiPrev (v : Mapper) : (s.setMapper v).nmiPrev = s.nmiPrev := rfl
@[simp] theorem State.setMapper_instrCount (v : Mapper) : (s.setMapper v).instrCount = s.instrCount := rfl
@[simp] theorem State.setMapper_extraCycles (v : Mapper) : (s.setMapper v).extraCycles = s.extraCycles := rfl
@[simp] theorem State.setMapper_ram (v : Mapper) : (s.setMapper v).ram = s.ram := rfl
@[simp] theorem State.setMapper_ppu (v : Mapper) : (s.setMapper v).ppu = s.ppu := rfl
@[simp] theorem State.setMapper_apu (v : Mapper) : (s.setMapper v).apu = s.apu := rfl
@[simp] theorem State.setMapper_ctl (v : Mapper) : (s.setMapper v).ctl = s.ctl := rfl
@[simp] theorem State.setMapper_mapper (v : Mapper) : (s.setMapper v).mapper = v := rfl
@[simp] theorem State.setMapper_tick (v : Mapper) : (s.setMapper v).tick = s.tick := rfl
@[simp] theorem State.setMapper_halted (v : Mapper) : (s.setMapper v).halted = s.halted := rfl
@[simp] theorem State.setMapper_cart (v : Mapper) : (s.setMapper v).cart = s.cart := rfl
@[simp] theorem State.setMapper_params (v : Mapper) : (s.setMapper v).params = s.params := rfl
@[simp] theorem State.setMapper_draws (v : Mapper) : (s.setMapper v).draws = s.draws := rfl
@[simp] theorem State.setMapper_buttonDraws (v : Mapper) : (s.setMapper v).buttonDraws = s.buttonDraws := rfl
@[simp] theorem State.setMapper_video (v : Mapper) : (s.setMapper v).video = s.video := rfl
@[simp] theorem State.setMapper_audio (v : Mapper) : (s.setMapper v).audio = s.audio := rfl

@[simp] theorem State.setNmiPrev_a (v : Bool) : (s.setNmiPrev v).a = s.a := rfl
@[simp] theorem State.setNmiPrev_x (v : Bool) : (s.setNmiPrev v).x = s.x := rfl
@[simp] theorem State.setNmiPrev_y (v : Bool) : (s.setNmiPrev v).y = s.y := rfl
@[simp] theorem State.setNmiPrev_sp (v : Bool) : (s.setNmiPrev v).sp = s.sp := rfl
@[simp] theorem State.setNmiPrev_pc (v : Bool) : (s.setNmiPrev v).pc = s.pc := rfl
@[simp] theorem State.setNmiPrev_p (v : Bool) : (s.setNmiPrev v).p = s.p := rfl
@[simp] theorem State.setNmiPrev_cyclesRemaining (v : Bool) : (s.setNmiPrev v).cyclesRemaining = s.cyclesRemaining := rfl
@[simp] theorem State.setNmiPrev_nmiPrev (v : Bool) : (s.setNmiPrev v).nmiPrev = v := rfl
@[simp] theorem State.setNmiPrev_instrCount (v : Bool) : (s.setNmiPrev v).instrCount = s.instrCount := rfl
@[simp] theorem State.setNmiPrev_extraCycles (v : Bool) : (s.setNmiPrev v).extraCycles = s.extraCycles := rfl
@[simp] theorem State.setNmiPrev_ram (v : Bool) : (s.setNmiPrev v).ram = s.ram := rfl
@[simp] theorem State.setNmiPrev_ppu (v : Bool) : (s.setNmiPrev v).ppu = s.ppu := rfl
@[simp] theorem State.setNmiPrev_apu (v : Bool) : (s.setNmiPrev v).apu = s.apu := rfl
@[simp] theorem State.setNmiPrev_ctl (v : Bool) : (s.setNmiPrev v).ctl = s.ctl := rfl
@[simp] theorem State.setNmiPrev_mapper (v : Bool) : (s.setNmiPrev v).mapper = s.mapper := rfl
@[simp] theorem State.setNmiPrev_tick (v : Bool) : (s.setNmiPrev v).tick = s.tick := rfl
@[simp] theorem State.setNmiPrev_halted (v : Bool) : (s.setNmiPrev v).halted = s.halted := rfl
@[simp] theorem State.setNmiPrev_cart (v : Bool) : (s.setNmiPrev v).cart = s.cart := rfl
@[simp] theorem State.setNmiPrev_params (v : Bool) : (s.setNmiPrev v).params = s.params := rfl
@[simp] theorem State.setNmiPrev_draws (v : Bool) : (s.setNmiPrev v).draws = s.draws := rfl
@[simp] theorem State.setNmiPrev_buttonDraws (v : Bool) : (s.setNmiPrev v).buttonDraws = s.buttonDraws := rfl
@[simp] theorem State.setNmiPrev_video (v : Bool) : (s.setNmiPrev v).video = s.video := rfl
@[simp] theorem State.setNmiPrev_audio (v : Bool) : (s.setNmiPrev v).audio = s.audio := rfl

@[simp] theorem State.setExtraCycles_a (v : Nat) : (s.setExtraCycles v).a = s.a := rfl
@[simp] theorem State.setExtraCycles_x (v : Nat) : (s.setExtraCycles v).x = s.x := rfl
@[simp] theorem State.setExtraCycles_y (v : Nat) : (s.setExtraCycles v).y = s.y := rfl
@[simp] theorem State.setExtraCycles_sp (v : Nat) : (s.setExtraCycles v).sp = s.sp := rfl
@[simp] theorem State.setExtraCycles_pc (v : Nat) : (s.setExtraCycles v).pc = s.pc := rfl
@[simp] theorem State.setExtraCycles_p (v : Nat) : (s.setExtraCycles v).p = s.p := rfl
@[simp] theorem State.setExtraCycles_cyclesRemaining (v : Nat) : (s.setExtraCycles v).cyclesRemaining = s.cyclesRemaining := rfl
@[simp] theorem State.setExtraCycles_nmiPrev (v : Nat) : (s.setExtraCycles v).nmiPrev = s.nmiPrev := rfl
@[simp] theorem State.setExtraCycles_instrCount (v : Nat) : (s.setExtraCycles v).instrCount = s.instrCount := rfl
@[simp] theorem State.setExtraCycles_extraCycles (v : Nat) : (s.setExtraCycles v).extraCycles = v := rfl
@[simp] theorem State.setExtraCycles_ram (v : Nat) : (s.setExtraCycles v).ram = s.ram := rfl
@[simp] theorem State.setExtraCycles_ppu (v : Nat) : (s.setExtraCycles v).ppu = s.ppu := rfl
@[simp] theorem State.setExtraCycles_apu (v : Nat) : (s.setExtraCycles v).apu = s.apu := rfl
@[simp] theorem State.setExtraCycles_ctl (v : Nat) : (s.setExtraCycles v).ctl = s.ctl := rfl
@[simp] theorem State.setExtraCycles_mapper (v : Nat) : (s.setExtraCycles v).mapper = s.mapper := rfl
@[simp] theorem State.setExtraCycles_tick (v : Nat) : (s.setExtraCycles v).tick = s.tick := rfl
@[simp] theorem State.setExtraCycles_halted (v : Nat) : (s.setExtraCycles v).halted = s.halted := rfl
@[simp] theorem State.setExtraCycles_cart (v : Nat) : (s.setExtraCycles v).cart = s.cart := rfl
@[simp] theorem State.setExtraCycles_params (v : Nat) : (s.setExtraCycles v).params = s.params := rfl
@[simp] theorem State.setExtraCycles_draws (v : Nat) : (s.setExtraCycles v).draws = s.draws := rfl
@[simp] theorem State.setExtraCycles_buttonDraws (v : Nat) : (s.setExtraCycles v).buttonDraws = s.buttonDraws := rfl
@[simp] theorem State.setExtraCycles_video (v : Nat) : (s.setExtraCycles v).video = s.video := rfl
@[simp] theorem State.setExtraCycles_audio (v : Nat) : (s.setExtraCycles v).audio = s.audio := rfl

@[simp] theorem State.setHalted_a (v : Option HaltReason) : (s.setHalted v).a = s.a := rfl
@[simp] theorem State.setHalted_x (v : Option HaltReason) : (s.setHalted v).x = s.x := rfl
@[simp] theorem State.setHalted_y (v : Option HaltReason) : (s.setHalted v).y = s.y := rfl
@[simp] theorem State.setHalted_sp (v : Option HaltReason) : (s.setHalted v).sp = s.sp := rfl
@[simp] theorem State.setHalted_pc (v : Option HaltReason) : (s.setHalted v).pc = s.pc := rfl
@[simp] theorem State.setHalted_p (v : Option HaltReason) : (s.setHalted v).p = s.p := rfl
@[simp] theorem State.setHalted_cyclesRemaining (v : Option HaltReason) : (s.setHalted v).cyclesRemaining = s.cyclesRemaining := rfl
@[simp] theorem State.setHalted_nmiPrev (v : Option HaltReason) : (s.setHalted v).nmiPrev = s.nmiPrev := rfl
@[simp] theorem State.setHalted_instrCount (v : Option HaltReason) : (s.setHalted v).instrCount = s.instrCount := rfl
@[simp] theorem State.setHalted_extraCycles (v : Option HaltReason) : (s.setHalted v).extraCycles = s.extraCycles := rfl
@[simp] theorem State.setHalted_ram (v : Option HaltReason) : (s.setHalted v).ram = s.ram := rfl
@[simp] theorem State.setHalted_ppu (v : Option HaltReason) : (s.setHalted v).ppu = s.ppu := rfl
@[simp] theorem State.setHalted_apu (v : Option HaltReason) : (s.setHalted v).apu = s.apu := rfl
@[simp] theorem State.setHalted_ctl (v : Option HaltReason) : (s.setHalted v).ctl = s.ctl := rfl
@[simp] theorem State.setHalted_mapper (v : Option HaltReason) : (s.setHalted v).mapper = s.mapper := rfl
@[simp] theorem State.setHalted_tick (v : Option HaltReason) : (s.setHalted v).tick = s.tick := rfl
@[simp] theorem State.setHalted_halted (v : Option HaltReason) : (s.setHalted v).halted = v := rfl
@[simp] theorem State.setHalted_cart (v : Option HaltReason) : (s.setHalted v).cart = s.cart := rfl
@[simp] theorem State.setHalted_params (v : Option HaltReason) : (s.setHalted v).params = s.params := rfl
@[simp] theorem State.setHalted_draws (v : Option HaltReason) : (s.setHalted v).draws = s.draws := rfl
@[simp] theorem State.setHalted_buttonDraws (v : Option HaltReason) : (s.setHalted v).buttonDraws = s.buttonDraws := rfl
@[simp] theorem State.setHalted_video (v : Option HaltReason) : (s.setHalted v).video = s.video := rfl
@[simp] theorem State.setHalted_audio (v : Option HaltReason) : (s.setHalted v).audio = s.audio := rfl

@[simp] theorem State.setDraws_a (v : Nat) : (s.setDraws v).a = s.a := rfl
@[simp] theorem State.setDraws_x (v : Nat) : (s.setDraws v).x = s.x := rfl
@[simp] theorem State.setDraws_y (v : Nat) : (s.setDraws v).y = s.y := rfl
@[simp] theorem State.setDraws_sp (v : Nat) : (s.setDraws v).sp = s.sp := rfl
@[simp] theorem State.setDraws_pc (v : Nat) : (s.setDraws v).pc = s.pc := rfl
@[simp] theorem State.setDraws_p (v : Nat) : (s.setDraws v).p = s.p := rfl
@[simp] theorem State.setDraws_cyclesRemaining (v : Nat) : (s.setDraws v).cyclesRemaining = s.cyclesRemaining := rfl
@[simp] theorem State.setDraws_nmiPrev (v : Nat) : (s.setDraws v).nmiPrev = s.nmiPrev := rfl
@[simp] theorem State.setDraws_instrCount (v : Nat) : (s.setDraws v).instrCount = s.instrCount := rfl
@[simp] theorem State.setDraws_extraCycles (v : Nat) : (s.setDraws v).extraCycles = s.extraCycles := rfl
@[simp] theorem State.setDraws_ram (v : Nat) : (s.setDraws v).ram = s.ram := rfl
@[simp] theorem State.setDraws_ppu (v : Nat) : (s.setDraws v).ppu = s.ppu := rfl
@[simp] theorem State.setDraws_apu (v : Nat) : (s.setDraws v).apu = s.apu := rfl
@[simp] theorem State.setDraws_ctl (v : Nat) : (s.setDraws v).ctl = s.ctl := rfl
@[simp] theorem State.setDraws_mapper (v : Nat) : (s.setDraws v).mapper = s.mapper := rfl
@[simp] theorem State.setDraws_tick (v : Nat) : (s.setDraws v).tick = s.tick := rfl
@[simp] theorem State.setDraws_halted (v : Nat) : (s.setDraws v).halted = s.halted := rfl
@[simp] theorem State.setDraws_cart (v : Nat) : (s.setDraws v).cart = s.cart := rfl
@[simp] theorem State.setDraws_params (v : Nat) : (s.setDraws v).params = s.params := rfl
@[simp] theorem State.setDraws_draws (v : Nat) : (s.setDraws v).draws = v := rfl
@[simp] theorem State.setDraws_buttonDraws (v : Nat) : (s.setDraws v).buttonDraws = s.buttonDraws := rfl
@[simp] theorem State.setDraws_video (v : Nat) : (s.setDraws v).video = s.video := rfl
@[simp] theorem State.setDraws_audio (v : Nat) : (s.setDraws v).audio = s.audio := rfl

@[simp] theorem State.setButtonDraws_a (v : Nat) : (s.setButtonDraws v).a = s.a := rfl
@[simp] theorem State.setButtonDraws_x (v : Nat) : (s.setButtonDraws v).x = s.x := rfl
@[simp] theorem State.setButtonDraws_y (v : Nat) : (s.setButtonDraws v).y = s.y := rfl
@[simp] theorem State.setButtonDraws_sp (v : Nat) : (s.setButtonDraws v).sp = s.sp := rfl
@[simp] theorem State.setButtonDraws_pc (v : Nat) : (s.setButtonDraws v).pc = s.pc := rfl
@[simp] theorem State.setButtonDraws_p (v : Nat) : (s.setButtonDraws v).p = s.p := rfl
@[simp] theorem State.setButtonDraws_cyclesRemaining (v : Nat) : (s.setButtonDraws v).cyclesRemaining = s.cyclesRemaining := rfl
@[simp] theorem State.setButtonDraws_nmiPrev (v : Nat) : (s.setButtonDraws v).nmiPrev = s.nmiPrev := rfl
@[simp] theorem State.setButtonDraws_instrCount (v : Nat) : (s.setButtonDraws v).instrCount = s.instrCount := rfl
@[simp] theorem State.setButtonDraws_extraCycles (v : Nat) : (s.setButtonDraws v).extraCycles = s.extraCycles := rfl
@[simp] theorem State.setButtonDraws_ram (v : Nat) : (s.setButtonDraws v).ram = s.ram := rfl
@[simp] theorem State.setButtonDraws_ppu (v : Nat) : (s.setButtonDraws v).ppu = s.ppu := rfl
@[simp] theorem State.setButtonDraws_apu (v : Nat) : (s.setButtonDraws v).apu = s.apu := rfl
@[simp] theorem State.setButtonDraws_ctl (v : Nat) : (s.setButtonDraws v).ctl = s.ctl := rfl
@[simp] theorem State.setButtonDraws_mapper (v : Nat) : (s.setButtonDraws v).mapper = s.mapper := rfl
@[simp] theorem State.setButtonDraws_tick (v : Nat) : (s.setButtonDraws v).tick = s.tick := rfl
@[simp] theorem State.setButtonDraws_halted (v : Nat) : (s.setButtonDraws v).halted = s.halted := rfl
@[simp] theorem State.setButtonDraws_cart (v : Nat) : (s.setButtonDraws v).cart = s.cart := rfl
@[simp] theorem State.setButtonDraws_params (v : Nat) : (s.setButtonDraws v).params = s.params := rfl
@[simp] theorem State.setButtonDraws_draws (v : Nat) : (s.setButtonDraws v).draws = s.draws := rfl
@[simp] theorem State.setButtonDraws_buttonDraws (v : Nat) : (s.setButtonDraws v).buttonDraws = v := rfl
@[simp] theorem State.setButtonDraws_video (v : Nat) : (s.setButtonDraws v).video = s.video := rfl
@[simp] theorem State.setButtonDraws_audio (v : Nat) : (s.setButtonDraws v).audio = s.audio := rfl

@[simp] theorem State.setReg_sp (r : Reg) (v : Byte) : (s.setReg r v).sp = s.sp := by cases r <;> rfl
@[simp] theorem State.setReg_pc (r : Reg) (v : Byte) : (s.setReg r v).pc = s.pc := by cases r <;> rfl
@[simp] theorem State.setReg_p (r : Reg) (v : Byte) : (s.setReg r v).p = s.p := by cases r <;> rfl
@[simp] theorem State.setReg_cyclesRemaining (r : Reg) (v : Byte) : (s.setReg r v).cyclesRemaining = s.cyclesRemaining := by cases r <;> rfl
@[simp] theorem State.setReg_nmiPrev (r : Reg) (v : Byte) : (s.setReg r v).nmiPrev = s.nmiPrev := by cases r <;> rfl
@[simp] theorem State.setReg_instrCount (r : Reg) (v : Byte) : (s.setReg r v).instrCount = s.instrCount := by cases r <;> rfl
@[simp] theorem State.setReg_extraCycles (r : Reg) (v : Byte) : (s.setReg r v).extraCycles = s.extraCycles := by cases r <;> rfl
@[simp] theorem State.setReg_ram (r : Reg) (v : Byte) : (s.setReg r v).ram = s.ram := by cases r <;> rfl
@[simp] theorem State.setReg_ppu (r : Reg) (v : Byte) : (s.setReg r v).ppu = s.ppu := by cases r <;> rfl
@[simp] theorem State.setReg_apu (r : Reg) (v : Byte) : (s.setReg r v).apu = s.apu := by cases r <;> rfl
@[simp] theorem State.setReg_ctl (r : Reg) (v : Byte) : (s.setReg r v).ctl = s.ctl := by cases r <;> rfl
@[simp] theorem State.setReg_mapper (r : Reg) (v : Byte) : (s.setReg r v).mapper = s.mapper := by cases r <;> rfl
@[simp] theorem State.setReg_tick (r : Reg) (v : Byte) : (s.setReg r v).tick = s.tick := by cases r <;> rfl
@[simp] theorem State.setReg_halted (r : Reg) (v : Byte) : (s.setReg r v).halted = s.halted := by cases r <;> rfl
@[simp] theorem State.setReg_cart (r : Reg) (v : Byte) : (s.setReg r v).cart = s.cart := by cases r <;> rfl
@[simp] theorem State.setReg_params (r : Reg) (v : Byte) : (s.setReg r v).params = s.params := by cases r <;> rfl
@[simp] theorem State.setReg_draws (r : Reg) (v : Byte) : (s.setReg r v).draws = s.draws := by cases r <;> rfl
@[simp] theorem State.setReg_buttonDraws (r : Reg) (v : Byte) : (s.setReg r v).buttonDraws = s.buttonDraws := by cases r <;> rfl
@[simp] theorem State.setReg_video (r : Reg) (v : Byte) : (s.setReg r v).video = s.video := by cases r <;> rfl
@[simp] theorem State.setReg_audio (r : Reg) (v : Byte) : (s.setReg r v).audio = s.audio := by cases r <;> rfl

/-- A register reads back what was written to it. -/
@[simp] theorem State.reg_setReg (r : Reg) (v : Byte) : (s.setReg r v).reg r = v := by cases r <;> rfl

/-- Writing a register leaves the others alone. -/
theorem State.reg_setReg_of_ne {r q : Reg} (h : q ≠ r) (v : Byte) : (s.setReg r v).reg q = s.reg q := by
  cases r <;> cases q <;> first | rfl | exact absurd rfl h

@[simp] theorem State.reg_setSp (r : Reg) (v : Byte) : (s.setSp v).reg r = s.reg r := by cases r <;> rfl
@[simp] theorem State.reg_setPc (r : Reg) (v : Addr) : (s.setPc v).reg r = s.reg r := by cases r <;> rfl
@[simp] theorem State.reg_setP (r : Reg) (v : Flags) : (s.setP v).reg r = s.reg r := by cases r <;> rfl
@[simp] theorem State.reg_setRam (r : Reg) (v : Memory) : (s.setRam v).reg r = s.reg r := by cases r <;> rfl
@[simp] theorem State.reg_setPpu (r : Reg) (v : Ppu) : (s.setPpu v).reg r = s.reg r := by cases r <;> rfl
@[simp] theorem State.reg_setApu (r : Reg) (v : Apu) : (s.setApu v).reg r = s.reg r := by cases r <;> rfl
@[simp] theorem State.reg_setCtl (r : Reg) (v : Controller) : (s.setCtl v).reg r = s.reg r := by cases r <;> rfl
@[simp] theorem State.reg_setMapper (r : Reg) (v : Mapper) : (s.setMapper v).reg r = s.reg r := by cases r <;> rfl
@[simp] theorem State.reg_setNmiPrev (r : Reg) (v : Bool) : (s.setNmiPrev v).reg r = s.reg r := by cases r <;> rfl
@[simp] theorem State.reg_setExtraCycles (r : Reg) (v : Nat) : (s.setExtraCycles v).reg r = s.reg r := by cases r <;> rfl
@[simp] theorem State.reg_setHalted (r : Reg) (v : Option HaltReason) : (s.setHalted v).reg r = s.reg r := by cases r <;> rfl
@[simp] theorem State.reg_setDraws (r : Reg) (v : Nat) : (s.setDraws v).reg r = s.reg r := by cases r <;> rfl
@[simp] theorem State.reg_setButtonDraws (r : Reg) (v : Nat) : (s.setButtonDraws v).reg r = s.reg r := by cases r <;> rfl

@[simp] theorem raise_final (reason : HaltReason) :
    (raise reason s).final = s.setHalted (some reason) := by cases reason <;> rfl

@[simp] theorem raise_reason (reason : HaltReason) : (raise reason s).reason = reason := by
  cases reason <;> rfl

/-- An access that completed, seen through `bind`. -/
theorem Access.bind_done {α β : Type} {r : Access α} {k : α → State → Access β} {b : β} {t : State}
    (h : r.bind k = .done b t) : ∃ v u, r = .done v u ∧ k v u = .done b t := by
  cases r with
  | done v u => exact ⟨v, u, rfl, h⟩
  | raised f => cases h

/-- An access that faulted, seen through `bind`. -/
theorem Access.bind_raised {α β : Type} {r : Access α} {k : α → State → Access β} {f : Fault}
    (h : r.bind k = .raised f) : r = .raised f ∨ ∃ v u, r = .done v u ∧ k v u = .raised f := by
  cases r with
  | done v u => exact .inr ⟨v, u, rfl, h⟩
  | raised g => exact .inl (by cases h; rfl)

/-- An instruction that completed, seen through `andThen`. -/
theorem Access.andThen_next {α : Type} {r : Access α} {k : α → State → Outcome} {t : State}
    (h : r.andThen k = .next t) : ∃ v u, r = .done v u ∧ k v u = .next t := by
  cases r with
  | done v u => exact ⟨v, u, rfl, h⟩
  | raised f => cases h

/-- An instruction that faulted, seen through `andThen`. -/
theorem Access.andThen_fault {α : Type} {r : Access α} {k : α → State → Outcome} {f : Fault}
    (h : r.andThen k = .fault f) : r = .raised f ∨ ∃ v u, r = .done v u ∧ k v u = .fault f := by
  cases r with
  | done v u => exact .inr ⟨v, u, rfl, h⟩
  | raised g => exact .inl (by cases h; rfl)

@[simp] theorem Access.bind_of_done {α β : Type} (v : α) (u : State) (k : α → State → Access β) :
    (Access.done v u).bind k = k v u := rfl

@[simp] theorem Access.bind_of_raised {α β : Type} (f : Fault) (k : α → State → Access β) :
    (Access.raised f : Access α).bind k = .raised f := rfl

@[simp] theorem Access.andThen_of_done {α : Type} (v : α) (u : State) (k : α → State → Outcome) :
    (Access.done v u).andThen k = k v u := rfl

@[simp] theorem Access.andThen_of_raised {α : Type} (f : Fault) (k : α → State → Outcome) :
    (Access.raised f : Access α).andThen k = .fault f := rfl

end Sys2Proof.Machine
end

