-- ==== Sys2Proof/Laws/Bus.lean ====
section
/-! SUPPORT. The laws of the bus: one lemma per region of the address map, what a read or a write can
do, and the storage invariant kept by every access. -/

namespace Sys2Proof.Machine

/-! ### Reads, region by region -/

theorem busRead_ram {a : Addr} {s : State} (h : a.toNat < 0x2000) :
    busRead a s = .done (ramRead a s) s := by
  simp [busRead, h]

theorem busRead_ppu {a : Addr} {s : State} (h : 0x2000 ≤ a.toNat) (h' : a.toNat < 0x4000) :
    busRead a s = ppuRead a s := by
  simp [busRead, Nat.not_lt.mpr h, h']

theorem busRead_bank {a : Addr} {s : State} (h : 0x4000 ≤ a.toNat ∧ a.toNat < 0x4010 ∨ a.toNat = 0x4015) :
    busRead a s = .done (apuRead a s) s := by
  unfold busRead
  simp only []
  rw [if_neg (by omega), if_neg (by omega)]
  split
  · rfl
  · rw [if_pos (by omega)]

theorem busRead_controller (s : State) : busRead 0x4016 s = .done (ctlRead s).1 (ctlRead s).2 := rfl

theorem busRead_unmapped {a : Addr} {s : State}
    (h : 0x4010 ≤ a.toNat ∧ a.toNat ≤ 0x4014 ∨ 0x4017 ≤ a.toNat ∧ a.toNat ≤ 0x401F) :
    busRead a s = .raised (raise (.unmappedIoRead a) s) := by
  unfold busRead
  simp only []
  rw [if_neg (by omega), if_neg (by omega), if_neg (by omega), if_neg (by omega), if_neg (by omega),
    if_pos (by omega)]

theorem busRead_cartridge {a : Addr} {s : State} (h : 0x4020 ≤ a.toNat) (h' : a.toNat < 0x8000) :
    busRead a s = .done (draw s).1 (draw s).2 := by
  unfold busRead
  simp only []
  rw [if_neg (by omega), if_neg (by omega), if_neg (by omega), if_neg (by omega), if_neg (by omega),
    if_neg (by omega), if_pos (by omega)]

theorem busRead_mapper {a : Addr} {s : State} (h : 0x8000 ≤ a.toNat) :
    busRead a s = .done (mapperRead a s).1 (mapperRead a s).2 := by
  unfold busRead
  simp only []
  rw [if_neg (by omega), if_neg (by omega), if_neg (by omega), if_neg (by omega), if_neg (by omega),
    if_neg (by omega), if_neg (by omega)]

/-- A mapper read of a stored byte. -/
theorem mapperRead_of_index {a : Addr} {s : State} {i : Nat} (h : ∀ k, s.mapper ≠ .unsupported k)
    (hi : prgIndex s.cart s.params a = some i) : mapperRead a s = (Memory.read s.cart.prg i, s) := by
  unfold mapperRead
  cases hm : s.mapper with
  | nrom => simp [prgFixed, hi]
  | mmc1 r => simp [prgFixed, hi]
  | unsupported k => exact absurd hm (h k)

/-- A mapper read changes nothing but the count of draws. -/
theorem mapperRead_state (a : Addr) (s : State) :
    (mapperRead a s).2 = s ∨ mapperRead a s = draw s := by
  unfold mapperRead prgFixed
  split <;> try split
  all_goals first | exact .inl rfl | exact .inr rfl

/-- What `peek` sees is what a bus read returns, with no effect. -/
theorem busRead_of_peek {a : Addr} {s : State} {b : Byte} (h : peek s a = some b) :
    busRead a s = .done b s := by
  unfold peek at h
  split at h
  · rw [busRead_ram ‹_›]
    simp_all
  · split at h
    · cases h
    · rw [busRead_mapper (by omega)]
      split at h
      · cases h
      · rename_i hm
        cases hi : prgIndex s.cart s.params a with
        | none => simp [hi] at h
        | some i =>
          rw [mapperRead_of_index hm hi]
          simp_all

/-- Everything a read that completes can do. -/
theorem busRead_done {a : Addr} {s t : State} {v : Byte} (h : busRead a s = .done v t) :
    t = s ∨
    (0x2000 ≤ a.toNat ∧ a.toNat < 0x4000 ∧ a.toNat % 8 = 2 ∧ t = s.setPpu (statusRead s.params s.ppu)) ∨
    (0x2000 ≤ a.toNat ∧ a.toNat < 0x4000 ∧ a.toNat % 8 = 7 ∧ t = s.setPpu (dataRead s.cart s.ppu)) ∨
    (a = 0x4016 ∧ ∃ c n, t = (s.setButtonDraws n).setCtl c) ∨
    (0x4020 ≤ a.toNat ∧ t = s.setDraws (s.draws + 1)) := by
  unfold busRead at h
  simp only [] at h
  split at h
  · cases h
    exact .inl rfl
  split at h
  · have hlo : 0x2000 ≤ a.toNat := by omega
    have hhi : a.toNat < 0x4000 := ‹_›
    unfold ppuRead at h
    split at h <;> cases h
    · exact .inr (.inl ⟨hlo, hhi, ‹_›, rfl⟩)
    · exact .inl rfl
    · exact .inr (.inr (.inl ⟨hlo, hhi, ‹_›, rfl⟩))
  split at h
  · cases h
    exact .inl rfl
  split at h
  · cases h
    exact .inl rfl
  split at h
  · rename_i ha
    cases h
    have ha : a = 0x4016 := BitVec.eq_of_toNat_eq ha
    unfold ctlRead
    split
    · exact .inr (.inr (.inr (.inl ⟨ha, _, _, rfl⟩)))
    · split
      · exact .inr (.inr (.inr (.inl ⟨ha, _, s.buttonDraws, rfl⟩)))
      · exact .inl rfl
  split at h
  · cases h
  split at h
  · cases h
    exact .inr (.inr (.inr (.inr ⟨by omega, rfl⟩)))
  · cases h
    rcases mapperRead_state a s with hm | hm
    · exact .inl hm
    · rw [hm]
      exact .inr (.inr (.inr (.inr ⟨by omega, rfl⟩)))

/-- `readable`, by the address alone. -/
theorem readable_iff (a : Addr) :
    readable a = true ↔
      a.toNat < 0x2000 ∨ (a.toNat < 0x4000 ∧ (a.toNat % 8 = 2 ∨ a.toNat % 8 = 4 ∨ a.toNat % 8 = 7)) ∨
      (0x4000 ≤ a.toNat ∧ a.toNat < 0x4010) ∨ a.toNat = 0x4015 ∨ a.toNat = 0x4016 ∨ 0x4020 ≤ a.toNat := by
  unfold readable
  simp only []
  by_cases h0 : a.toNat < 0x2000
  · simp [h0]
  · by_cases h1 : a.toNat < 0x4000
    · simp [h0, h1, or_assoc]
      omega
    · simp [h0, h1, or_assoc]
      omega

/-- A read touches no CPU register, no RAM, no audio register, no mapper register and no clock. -/
theorem busRead_keeps {a : Addr} {s t : State} {v : Byte} (h : busRead a s = .done v t) :
    t = { s with ppu := t.ppu, ctl := t.ctl, draws := t.draws, buttonDraws := t.buttonDraws } := by
  rcases busRead_done h with rfl | ⟨_, _, _, rfl⟩ | ⟨_, _, _, rfl⟩ | ⟨_, c, n, rfl⟩ | ⟨_, rfl⟩ <;> rfl

/-- A read outside the PPU window and the controller port changes at most the count of draws. -/
theorem busRead_keeps_devices {a : Addr} {s t : State} {v : Byte} (h : busRead a s = .done v t)
    (ha : a.toNat < 0x2000 ∨ 0x4000 ≤ a.toNat) (hc : a ≠ 0x4016) : t = { s with draws := t.draws } := by
  rcases busRead_done h with rfl | ⟨_, _, _, rfl⟩ | ⟨_, _, _, rfl⟩ | ⟨rfl, _⟩ | ⟨_, rfl⟩
  · rfl
  · omega
  · omega
  · exact absurd rfl hc
  · rfl

/-- A read that faults changes nothing but `halted`, and its address is not readable. -/
theorem busRead_raised {a : Addr} {s : State} {f : Fault} (h : busRead a s = .raised f) :
    readable a = false ∧ (f = raise (.writeOnlyRegisterRead a) s ∨ f = raise (.unmappedIoRead a) s) := by
  rw [← Bool.not_eq_true, readable_iff]
  unfold busRead at h
  simp only [] at h
  split at h
  · cases h
  split at h
  · unfold ppuRead at h
    split at h <;> cases h
    rename_i h2 h4 h7
    simp only [imp_false] at h2 h4 h7
    exact ⟨by omega, .inl rfl⟩
  split at h
  · cases h
  split at h
  · cases h
  split at h
  · cases h
  split at h
  · cases h
    exact ⟨by omega, .inr rfl⟩
  split at h <;> cases h

/-- A readable address completes. -/
theorem busRead_of_readable {a : Addr} (s : State) (h : readable a = true) :
    ∃ v t, busRead a s = .done v t := by
  cases hr : busRead a s with
  | done v t => exact ⟨v, t, rfl⟩
  | raised f =>
    rw [(busRead_raised hr).1] at h
    cases h

/-- A read that completes has a readable address. -/
theorem readable_of_done {a : Addr} {s t : State} {v : Byte} (h : busRead a s = .done v t) :
    readable a = true := by
  rw [readable_iff]
  by_cases h0 : a.toNat < 0x2000
  · exact .inl h0
  by_cases h1 : a.toNat < 0x4000
  · rw [busRead_ppu (by omega) h1] at h
    unfold ppuRead at h
    split at h
    · exact .inr (.inl ⟨h1, .inl ‹_›⟩)
    · exact .inr (.inl ⟨h1, .inr (.inl ‹_›)⟩)
    · exact .inr (.inl ⟨h1, .inr (.inr ‹_›)⟩)
    · cases h
  by_cases h2 : 0x4010 ≤ a.toNat ∧ a.toNat ≤ 0x4014 ∨ 0x4017 ≤ a.toNat ∧ a.toNat ≤ 0x401F
  · rw [busRead_unmapped h2] at h
    cases h
  omega

/-- An address that is not readable faults. -/
theorem busRead_of_not_readable {a : Addr} (s : State) (h : readable a = false) :
    ∃ f, busRead a s = .raised f := by
  cases hr : busRead a s with
  | raised f => exact ⟨f, rfl⟩
  | done v t =>
    rw [readable_of_done hr] at h
    cases h

/-! ### Writes, region by region -/

theorem busWrite_ram {a : Addr} {v : Byte} {s : State} (h : a.toNat < 0x2000) :
    busWrite a v s = .done () (ramWrite a v s) := by
  simp [busWrite, h]

theorem busWrite_ppu {a : Addr} {v : Byte} {s : State} (h : 0x2000 ≤ a.toNat) (h' : a.toNat < 0x4000) :
    busWrite a v s = .done () (ppuWrite a v s) := by
  simp [busWrite, Nat.not_lt.mpr h, h']

theorem busWrite_dma (v : Byte) (s : State) : busWrite 0x4014 v s = oamDma v s := rfl

theorem busWrite_controller (v : Byte) (s : State) : busWrite 0x4016 v s = .done () (ctlWrite v s) := rfl

theorem busWrite_bank {a : Addr} {v : Byte} {s : State} (h : 0x4000 ≤ a.toNat) (h' : a.toNat ≤ 0x4017)
    (h14 : a.toNat ≠ 0x4014) (h16 : a.toNat ≠ 0x4016) : busWrite a v s = .done () (apuWrite a v s) := by
  unfold busWrite
  simp only []
  rw [if_neg (by omega), if_neg (by omega), if_neg h14, if_neg h16, if_pos (by omega)]

theorem busWrite_ignored {a : Addr} {v : Byte} {s : State} (h : 0x4018 ≤ a.toNat) (h' : a.toNat < 0x8000) :
    busWrite a v s = .done () s := by
  unfold busWrite
  simp only []
  rw [if_neg (by omega), if_neg (by omega), if_neg (by omega), if_neg (by omega), if_neg (by omega),
    if_pos h']

theorem busWrite_mapper {a : Addr} {v : Byte} {s : State} (h : 0x8000 ≤ a.toNat) :
    busWrite a v s = .done () (mapperWrite a v s) := by
  unfold busWrite
  simp only []
  rw [if_neg (by omega), if_neg (by omega), if_neg (by omega), if_neg (by omega), if_neg (by omega),
    if_neg (by omega)]

/-- Everything a write can be: the write of its region. -/
theorem busWrite_cases (a : Addr) (v : Byte) (s : State) :
    (a.toNat < 0x2000 ∧ busWrite a v s = .done () (ramWrite a v s)) ∨
    (0x2000 ≤ a.toNat ∧ a.toNat < 0x4000 ∧ busWrite a v s = .done () (ppuWrite a v s)) ∨
    (a = 0x4014 ∧ busWrite a v s = oamDma v s) ∨
    (a = 0x4016 ∧ busWrite a v s = .done () (ctlWrite v s)) ∨
    (0x4000 ≤ a.toNat ∧ a.toNat ≤ 0x4017 ∧ a.toNat ≠ 0x4014 ∧ a.toNat ≠ 0x4016 ∧
      busWrite a v s = .done () (apuWrite a v s)) ∨
    (0x4018 ≤ a.toNat ∧ a.toNat < 0x8000 ∧ busWrite a v s = .done () s) ∨
    (0x8000 ≤ a.toNat ∧ busWrite a v s = .done () (mapperWrite a v s)) := by
  by_cases h0 : a.toNat < 0x2000
  · exact .inl ⟨h0, busWrite_ram h0⟩
  by_cases h1 : a.toNat < 0x4000
  · exact .inr (.inl ⟨by omega, h1, busWrite_ppu (by omega) h1⟩)
  by_cases h2 : a.toNat = 0x4014
  · have : a = 0x4014 := BitVec.eq_of_toNat_eq h2
    subst this
    exact .inr (.inr (.inl ⟨rfl, rfl⟩))
  by_cases h3 : a.toNat = 0x4016
  · have : a = 0x4016 := BitVec.eq_of_toNat_eq h3
    subst this
    exact .inr (.inr (.inr (.inl ⟨rfl, rfl⟩)))
  by_cases h4 : a.toNat ≤ 0x4017
  · exact .inr (.inr (.inr (.inr (.inl ⟨by omega, h4, h2, h3, busWrite_bank (by omega) h4 h2 h3⟩))))
  by_cases h5 : a.toNat < 0x8000
  · exact .inr (.inr (.inr (.inr (.inr (.inl ⟨by omega, h5, busWrite_ignored (by omega) h5⟩)))))
  · exact .inr (.inr (.inr (.inr (.inr (.inr ⟨by omega, busWrite_mapper (by omega)⟩)))))

/-- A write outside $4014 completes. -/
theorem busWrite_of_ne_dma {a : Addr} (v : Byte) (s : State) (h : a ≠ 0x4014) :
    ∃ t, busWrite a v s = .done () t := by
  rcases busWrite_cases a v s with ⟨_, h'⟩ | ⟨_, _, h'⟩ | ⟨h', _⟩ | ⟨_, h'⟩ | ⟨_, _, _, _, h'⟩ | ⟨_, _, h'⟩ | ⟨_, h'⟩
  · exact ⟨_, h'⟩
  · exact ⟨_, h'⟩
  · exact absurd h' h
  · exact ⟨_, h'⟩
  · exact ⟨_, h'⟩
  · exact ⟨_, h'⟩
  · exact ⟨_, h'⟩

/-! ### The OAM DMA -/

theorem dmaCopy_succ (page : Byte) (n : Nat) (s : State) :
    dmaCopy page (n + 1) s =
      (busRead (word page (BitVec.ofNat 8 (255 - n))) s).bind fun v s =>
      dmaCopy page n (s.setPpu { s.ppu with oam := Memory.write s.ppu.oam (255 - n) v }) := rfl

/-- The copies of a page that can be read complete. -/
theorem dmaCopy_completes {page : Byte} (h : dmaReadable page = true) (n : Nat) (s : State) :
    ∃ t, dmaCopy page n s = .done () t := by
  induction n generalizing s with
  | zero => exact ⟨s, rfl⟩
  | succ n ih =>
    rw [dmaCopy_succ]
    have hr : readable (word page (BitVec.ofNat 8 (255 - n))) = true := by
      have hw := toNat_word page (BitVec.ofNat 8 (255 - n))
      have hl := (BitVec.ofNat 8 (255 - n)).isLt
      simp only [dmaReadable, Bool.or_eq_true, decide_eq_true_eq] at h
      rw [readable_iff]
      omega
    obtain ⟨v, u, hu⟩ := busRead_of_readable s hr
    rw [hu]
    exact ih _

/-- A copy that completes has read a readable address each time. -/
theorem dmaCopy_done {page : Byte} {n : Nat} {s t : State} (h : dmaCopy page n s = .done () t) {k : Nat}
    (hk : k < n) : readable (word page (BitVec.ofNat 8 (255 - k))) = true := by
  induction n generalizing s with
  | zero => omega
  | succ n ih =>
    rw [dmaCopy_succ] at h
    obtain ⟨v, u, hu, h⟩ := Access.bind_done h
    by_cases hkn : k = n
    · rw [hkn]
      exact readable_of_done hu
    · exact ih h (by omega)

/-- The OAM DMA of a page that cannot be read faults. -/
theorem oamDma_faults {page : Byte} (h : dmaReadable page = false) (s : State) :
    ∃ f, oamDma page s = .raised f := by
  unfold oamDma
  cases hd : dmaCopy page 256 s with
  | raised f => exact ⟨f, rfl⟩
  | done v t =>
    exfalso
    have h0 := dmaCopy_done hd (k := 255) (by decide)
    have h16 := dmaCopy_done hd (k := 239) (by decide)
    have w0 := toNat_word page (BitVec.ofNat 8 0)
    have w16 := toNat_word page (BitVec.ofNat 8 16)
    simp only [dmaReadable, Bool.or_eq_false_iff, decide_eq_false_iff_not] at h
    rw [readable_iff] at h0 h16
    simp at h0 h16 w0 w16
    omega

/-- The copies of a page change OAM, and what reading the page changes. -/
theorem dmaCopy_keeps {page : Byte} {n : Nat} {s t : State} (h : dmaCopy page n s = .done () t) :
    t = { s with ppu := t.ppu, ctl := t.ctl, draws := t.draws, buttonDraws := t.buttonDraws } := by
  induction n generalizing s with
  | zero =>
    cases h
    rfl
  | succ n ih =>
    rw [dmaCopy_succ] at h
    obtain ⟨v, u, hu, h⟩ := Access.bind_done h
    rw [ih h, busRead_keeps hu]
    rfl

/-- The OAM DMA of a page that can be read completes, and changes OAM, the stall and the count of
draws, nothing else. -/
theorem dmaCopy_of_readable {page : Byte} (h : dmaReadable page = true) {n : Nat} {s t : State}
    (hd : dmaCopy page n s = .done () t) :
    t = { s with ppu := { s.ppu with oam := t.ppu.oam }, draws := t.draws } := by
  induction n generalizing s with
  | zero =>
    cases hd
    rfl
  | succ n ih =>
    rw [dmaCopy_succ] at hd
    obtain ⟨v, u, hu, hd⟩ := Access.bind_done hd
    have hw := toNat_word page (BitVec.ofNat 8 (255 - n))
    simp only [dmaReadable, Bool.or_eq_true, decide_eq_true_eq] at h
    have hu' := busRead_keeps_devices hu (by omega) (by
      intro hc
      have := congrArg BitVec.toNat hc
      have hl := (BitVec.ofNat 8 (255 - n)).isLt
      simp only [hw] at this
      change _ = 0x4016 at this
      omega)
    rw [ih hd, hu']
    rfl

/-- A write touches no CPU register and no clock. -/
theorem busWrite_keeps {a : Addr} {v : Byte} {s t : State} (h : busWrite a v s = .done () t) :
    t = { s with
      ram := t.ram, ppu := t.ppu, apu := t.apu, ctl := t.ctl, mapper := t.mapper
      extraCycles := t.extraCycles, draws := t.draws, buttonDraws := t.buttonDraws } := by
  rcases busWrite_cases a v s with ⟨_, h'⟩ | ⟨_, _, h'⟩ | ⟨_, h'⟩ | ⟨_, h'⟩ | ⟨_, _, _, _, h'⟩ | ⟨_, _, h'⟩ | ⟨_, h'⟩ <;>
    rw [h'] at h
  · cases h
    rfl
  · cases h
    unfold ppuWrite
    split <;> rfl
  · obtain ⟨_, u, hu, h⟩ := Access.bind_done h
    cases h
    rw [dmaCopy_keeps hu]
    rfl
  · cases h
    unfold ctlWrite
    split
    · rfl
    · split <;> rfl
  · cases h
    rfl
  · cases h
    rfl
  · cases h
    unfold mapperWrite
    split <;> rfl

/-- The frame of a write: no stored byte changes but the one written, and a device changes only when
the address is one of its registers. -/
theorem busWrite_frame {ea : Addr} {v : Byte} {s t : State} (h : busWrite ea v s = .done () t) :
    (∀ k, (ea.toNat < 0x2000 → k ≠ ea.toNat % 2048) → Memory.read t.ram k = Memory.read s.ram k) ∧
    (∀ a, (ea.toNat < 0x2000 → a.toNat < 0x2000 → a.toNat % 2048 ≠ ea.toNat % 2048) →
      peek t a = peek s a) ∧
    (ea.toNat < 0x2000 ∨ 0x4000 ≤ ea.toNat → ea ≠ 0x4014 → t.ppu = s.ppu) ∧
    (ea.toNat < 0x4000 ∨ 0x4018 ≤ ea.toNat → t.apu = s.apu) ∧
    (∀ k, k ≠ ea.toNat → Memory.read t.apu.bank k = Memory.read s.apu.bank k) ∧
    (ea ≠ 0x4014 → t.extraCycles = s.extraCycles ∧ t.draws = s.draws) ∧
    (ea ≠ 0x4014 → ea ≠ 0x4016 → t.ctl = s.ctl ∧ t.buttonDraws = s.buttonDraws) ∧
    (ea.toNat < 0x8000 → t.mapper = s.mapper) := by
  rcases busWrite_cases ea v s with ⟨hr, h'⟩ | ⟨hr, hr', h'⟩ | ⟨hr, h'⟩ | ⟨hr, h'⟩ | ⟨hr, hr', _, _, h'⟩ |
    ⟨hr, hr', h'⟩ | ⟨hr, h'⟩ <;> rw [h'] at h
  · cases h
    refine ⟨fun k hk => Memory.read_write_of_ne _ _ (Ne.symm (hk hr)), fun a ha => ?_, fun _ _ => rfl,
      fun _ => rfl, fun _ _ => rfl, fun _ => ⟨rfl, rfl⟩, fun _ _ => ⟨rfl, rfl⟩, fun _ => rfl⟩
    unfold peek
    split
    · congr 1
      exact Memory.read_write_of_ne _ _ (Ne.symm (ha hr ‹_›))
    · rfl
  · cases h
    obtain ⟨u, hu⟩ : ∃ u, ppuWrite ea v s = s.setPpu u := by
      unfold ppuWrite
      split <;> exact ⟨_, rfl⟩
    rw [hu]
    exact ⟨fun _ _ => rfl, fun _ _ => rfl, fun _ _ => by omega, fun _ => rfl, fun _ _ => rfl,
      fun _ => ⟨rfl, rfl⟩, fun _ _ => ⟨rfl, rfl⟩, fun _ => rfl⟩
  · subst hr
    obtain ⟨_, u, hu, h⟩ := Access.bind_done h
    cases h
    rw [dmaCopy_keeps hu]
    exact ⟨fun _ _ => rfl, fun _ _ => rfl, fun _ h => absurd rfl h, fun _ => rfl, fun _ _ => rfl,
      fun h => absurd rfl h, fun h => absurd rfl h, fun _ => rfl⟩
  · subst hr
    cases h
    obtain ⟨c, n, hu⟩ : ∃ c n, ctlWrite v s = (s.setCtl c).setButtonDraws n := by
      unfold ctlWrite
      split
      · exact ⟨_, _, rfl⟩
      · split
        · exact ⟨_, _, rfl⟩
        · exact ⟨s.ctl, s.buttonDraws, rfl⟩
    rw [hu]
    exact ⟨fun _ _ => rfl, fun _ _ => rfl, fun _ _ => rfl, fun _ => rfl, fun _ _ => rfl,
      fun _ => ⟨rfl, rfl⟩, fun _ h => absurd rfl h, fun _ => rfl⟩
  · cases h
    exact ⟨fun _ _ => rfl, fun _ _ => rfl, fun _ _ => rfl, fun _ => by omega,
      fun _ hk => Memory.read_write_of_ne _ _ (Ne.symm hk), fun _ => ⟨rfl, rfl⟩, fun _ _ => ⟨rfl, rfl⟩,
      fun _ => rfl⟩
  · cases h
    exact ⟨fun _ _ => rfl, fun _ _ => rfl, fun _ _ => rfl, fun _ => rfl, fun _ _ => rfl,
      fun _ => ⟨rfl, rfl⟩, fun _ _ => ⟨rfl, rfl⟩, fun _ => rfl⟩
  · cases h
    unfold mapperWrite
    split
    · exact ⟨fun _ _ => rfl, fun _ _ => rfl, fun _ _ => rfl, fun _ => rfl, fun _ _ => rfl,
        fun _ => ⟨rfl, rfl⟩, fun _ _ => ⟨rfl, rfl⟩, fun _ => rfl⟩
    · rename_i r hm
      exact ⟨fun _ _ => rfl, fun _ _ => by simp [peek, hm, ramRead], fun _ _ => rfl, fun _ => rfl,
        fun _ _ => rfl, fun _ => ⟨rfl, rfl⟩, fun _ _ => ⟨rfl, rfl⟩, fun _ => by omega⟩
    · exact ⟨fun _ _ => rfl, fun _ _ => rfl, fun _ _ => rfl, fun _ => rfl, fun _ _ => rfl,
        fun _ => ⟨rfl, rfl⟩, fun _ _ => ⟨rfl, rfl⟩, fun _ => rfl⟩

/-- The OAM DMA completes exactly from a page that can be read. -/
theorem busWrite_completes {a : Addr} (v : Byte) (s : State) (h : a ≠ 0x4014 ∨ dmaReadable v = true) :
    ∃ t, busWrite a v s = .done () t := by
  by_cases ha : a = 0x4014
  · subst ha
    obtain ⟨t, ht⟩ := dmaCopy_completes (h.resolve_left (by simp)) 256 s
    exact ⟨_, by rw [busWrite_dma, oamDma, ht]; rfl⟩
  · exact busWrite_of_ne_dma v s ha

end Sys2Proof.Machine
end

