-- ==== Sys2Proof/Laws/Storage.lean ====
section
/-! SUPPORT. Every access of the bus keeps the storage invariant: canonical memories within their
sizes, and a mapper state that fits the cartridge. -/

namespace Sys2Proof.Machine

/-- What the storage invariant asks of the PPU. -/
structure Ppu.Storage (u : Ppu) (cart : Cartridge) : Prop where
  oamWf : Memory.wf u.oam = true
  oamBelow : Memory.below 256 u.oam = true
  ntWf : Memory.wf u.nt = true
  ntBelow : Memory.below (ntSize cart.mirroring) u.nt = true
  palWf : Memory.wf u.pal = true
  palBelow : Memory.below 32 u.pal = true
  palClean : ∀ c ∈ u.pal, c.1 ∉ palAliases
  chrRamWf : Memory.wf u.chrRam = true
  chrRamBelow : Memory.below 8192 u.chrRam = true
  chrRamOnly : cart.chrBanks ≠ 0 → u.chrRam = []

theorem State.Storage.ppu {s : State} (h : s.Storage) : s.ppu.Storage s.cart :=
  ⟨h.oamWf, h.oamBelow, h.ntWf, h.ntBelow, h.palWf, h.palBelow, h.palClean, h.chrRamWf, h.chrRamBelow,
    h.chrRamOnly⟩

/-- The storage invariant reads only these components. -/
theorem State.Storage.of_eq {s t : State} (h : s.Storage) (hc : t.cart = s.cart) (hr : t.ram = s.ram)
    (hp : t.ppu.Storage s.cart) (ha : t.apu.bank = s.apu.bank) (hm : t.mapper = s.mapper) :
    t.Storage where
  cart := hc ▸ h.cart
  ramWf := hr ▸ h.ramWf
  ramBelow := hr ▸ h.ramBelow
  oamWf := hp.oamWf
  oamBelow := hp.oamBelow
  ntWf := hp.ntWf
  ntBelow := hc ▸ hp.ntBelow
  palWf := hp.palWf
  palBelow := hp.palBelow
  palClean := hp.palClean
  chrRamWf := hp.chrRamWf
  chrRamBelow := hp.chrRamBelow
  chrRamOnly := hc ▸ hp.chrRamOnly
  bankWf := ha ▸ h.bankWf
  bankSlots := ha ▸ h.bankSlots
  mapper := by rw [hm, hc]; exact h.mapper

/-- An update of the PPU that keeps its part keeps the whole. -/
theorem State.Storage.setPpu {s : State} (h : s.Storage) {u : Ppu} (hu : u.Storage s.cart) :
    (s.setPpu u).Storage := h.of_eq rfl rfl hu rfl rfl

/-- A write of RAM keeps the storage invariant. -/
theorem State.Storage.ramWrite {s : State} (h : s.Storage) (a : Addr) (v : Byte) :
    (ramWrite a v s).Storage where
  cart := h.cart
  ramWf := Memory.write_wf h.ramWf _ _
  ramBelow := Memory.write_below h.ramBelow (Nat.mod_lt _ (by decide)) _
  oamWf := h.oamWf
  oamBelow := h.oamBelow
  ntWf := h.ntWf
  ntBelow := h.ntBelow
  palWf := h.palWf
  palBelow := h.palBelow
  palClean := h.palClean
  chrRamWf := h.chrRamWf
  chrRamBelow := h.chrRamBelow
  chrRamOnly := h.chrRamOnly
  bankWf := h.bankWf
  bankSlots := h.bankSlots
  mapper := h.mapper

/-- A write of OAM inside its 256 bytes keeps the PPU's part. -/
theorem Ppu.Storage.oamWrite {u : Ppu} {cart : Cartridge} (h : u.Storage cart) {i : Nat} (hi : i < 256)
    (v : Byte) (w : Ppu) (hw : w = { w with
      oam := Memory.write u.oam i v, nt := u.nt, pal := u.pal, chrRam := u.chrRam }) :
    w.Storage cart := by
  rw [hw]
  exact ⟨Memory.write_wf h.oamWf _ _, Memory.write_below h.oamBelow hi _, h.ntWf, h.ntBelow, h.palWf,
    h.palBelow, h.palClean, h.chrRamWf, h.chrRamBelow, h.chrRamOnly⟩

/-- A change of PPU registers only keeps the PPU's part. -/
theorem Ppu.Storage.registers {u w : Ppu} {cart : Cartridge} (h : u.Storage cart)
    (hw : w.oam = u.oam ∧ w.nt = u.nt ∧ w.pal = u.pal ∧ w.chrRam = u.chrRam) : w.Storage cart := by
  obtain ⟨h1, h2, h3, h4⟩ := hw
  exact ⟨h1 ▸ h.oamWf, h1 ▸ h.oamBelow, h2 ▸ h.ntWf, h2 ▸ h.ntBelow, h3 ▸ h.palWf, h3 ▸ h.palBelow,
    h3 ▸ h.palClean, h4 ▸ h.chrRamWf, h4 ▸ h.chrRamBelow, h4 ▸ h.chrRamOnly⟩

theorem palIndex_lt (p : Nat) : palIndex p < 32 := by
  unfold palIndex
  simp only []
  split <;> omega

theorem palIndex_not_alias (p : Nat) : palIndex p ∉ palAliases := by
  unfold palIndex palAliases
  simp only []
  split
  · rename_i h
    rcases h with h | h | h | h <;> simp [h]
  · simp_all

/-- The nametable index of an admitted cartridge lies within its nametable RAM. -/
theorem ntBank_lt {m : Mirroring} (h : m ≠ .singleLower ∧ m ≠ .singleUpper) {t o : Nat} (ht : t < 4)
    (ho : o < 0x400) : ntBank m t * 0x400 + o < ntSize m := by
  cases m
  · simp only [ntBank, ntSize, reduceCtorEq, if_false]; omega
  · simp only [ntBank, ntSize, reduceCtorEq, if_false]; omega
  · simp only [ntBank, ntSize, if_true]; omega
  · exact absurd rfl h.1
  · exact absurd rfl h.2

/-- A VRAM write keeps the PPU's part. -/
theorem Ppu.Storage.vramWrite {u : Ppu} {cart : Cartridge} (h : u.Storage cart)
    (hc : cart.mirroring ≠ .singleLower ∧ cart.mirroring ≠ .singleUpper) (w : Addr) (v : Byte) :
    (vramWrite cart w v u).Storage cart := by
  unfold Machine.vramWrite vramTranslate
  simp only []
  by_cases h0 : w.toNat % 0x4000 < 0x2000
  · simp only [h0, if_true]
    split
    · exact ⟨h.oamWf, h.oamBelow, h.ntWf, h.ntBelow, h.palWf, h.palBelow, h.palClean,
        Memory.write_wf h.chrRamWf _ _, Memory.write_below h.chrRamBelow h0 _, fun hn => absurd ‹_› hn⟩
    · exact h
  · simp only [h0, if_false]
    by_cases h1 : w.toNat % 0x4000 < 0x3F00
    · simp only [h1, if_true]
      exact ⟨h.oamWf, h.oamBelow, Memory.write_wf h.ntWf _ _,
        Memory.write_below h.ntBelow (ntBank_lt hc (by omega) (by omega)) _, h.palWf, h.palBelow, h.palClean,
        h.chrRamWf, h.chrRamBelow, h.chrRamOnly⟩
    · simp only [h1, if_false]
      refine ⟨h.oamWf, h.oamBelow, h.ntWf, h.ntBelow, Memory.write_wf h.palWf _ _,
        Memory.write_below h.palBelow (palIndex_lt _) _, fun c hc' => ?_, h.chrRamWf, h.chrRamBelow, h.chrRamOnly⟩
      rcases Memory.mem_write hc' with ⟨hm, _⟩ | hm
      · rw [hm]
        exact palIndex_not_alias _
      · exact h.palClean c hm

/-- A PPU register write keeps the storage invariant. -/
theorem State.Storage.ppuWrite {s : State} (h : s.Storage) (a : Addr) (v : Byte) :
    (ppuWrite a v s).Storage := by
  unfold Machine.ppuWrite
  split
  · exact h.setPpu (h.ppu.registers ⟨rfl, rfl, rfl, rfl⟩)
  · exact h.setPpu (h.ppu.registers ⟨rfl, rfl, rfl, rfl⟩)
  · exact h
  · exact h.setPpu (h.ppu.registers ⟨rfl, rfl, rfl, rfl⟩)
  · exact h.setPpu (h.ppu.oamWrite s.ppu.oamAddr.isLt v _ rfl)
  · refine h.setPpu (h.ppu.registers ?_)
    unfold scrollWrite
    simp only []
    split <;> split <;> exact ⟨rfl, rfl, rfl, rfl⟩
  · refine h.setPpu (h.ppu.registers ?_)
    unfold vramAddrWrite
    split <;> exact ⟨rfl, rfl, rfl, rfl⟩
  · exact h.setPpu ((h.ppu.vramWrite h.cart.mirroring _ v).registers ⟨rfl, rfl, rfl, rfl⟩)

/-- A write of the APU bank keeps the storage invariant. -/
theorem State.Storage.apuWrite {s : State} (h : s.Storage) {a : Addr} (v : Byte)
    (h1 : 0x4000 ≤ a.toNat) (h2 : a.toNat ≤ 0x4017) (h3 : a.toNat ≠ 0x4014) (h4 : a.toNat ≠ 0x4016) :
    (apuWrite a v s).Storage where
  cart := h.cart
  ramWf := h.ramWf
  ramBelow := h.ramBelow
  oamWf := h.oamWf
  oamBelow := h.oamBelow
  ntWf := h.ntWf
  ntBelow := h.ntBelow
  palWf := h.palWf
  palBelow := h.palBelow
  palClean := h.palClean
  chrRamWf := h.chrRamWf
  chrRamBelow := h.chrRamBelow
  chrRamOnly := h.chrRamOnly
  bankWf := Memory.write_wf h.bankWf _ _
  bankSlots := fun c hc => by
    rcases Memory.mem_write hc with ⟨hm, _⟩ | hm
    · rw [hm]
      exact ⟨h1, h2, h3, h4⟩
    · exact h.bankSlots c hm
  mapper := h.mapper

/-- A serial shift that is not the fifth keeps the marker bit. -/
theorem mmc1_shift_ne_zero :
    ∀ (x : BitVec 5) (b : Bool), x ≠ 0 → x.getLsbD 0 = false →
      (x >>> 1) ||| (if b then 0x10 else 0) ≠ 0 := by decide

/-- A write of the MMC1 leaves its shift register with the marker bit or the sentinel. -/
theorem Mmc1.write_shift {r : Mmc1} (h : r.shift ≠ 0) (a : Addr) (v : Byte) : (r.write a v).shift ≠ 0 := by
  have h10 : (0x10 : BitVec 5) ≠ 0 := by decide
  unfold Mmc1.write
  split
  · exact h10
  · simp only []
    split
    · unfold Mmc1.latch
      split <;> exact h10
    · rename_i hf
      exact mmc1_shift_ne_zero _ _ h (by simpa using hf)

/-- A write of the mapper keeps the storage invariant. -/
theorem State.Storage.mapperWrite {s : State} (h : s.Storage) (a : Addr) (v : Byte) :
    (mapperWrite a v s).Storage := by
  unfold Machine.mapperWrite
  split
  · exact h
  · rename_i r hr
    have hm := h.mapper
    rw [hr] at hm
    exact ⟨h.cart, h.ramWf, h.ramBelow, h.oamWf, h.oamBelow, h.ntWf, h.ntBelow, h.palWf, h.palBelow,
      h.palClean, h.chrRamWf, h.chrRamBelow, h.chrRamOnly, h.bankWf, h.bankSlots,
      ⟨hm.1, Mmc1.write_shift hm.2 a v⟩⟩
  · exact h

/-- A read keeps the storage invariant. -/
theorem State.Storage.busRead {s t : State} (h : s.Storage) {a : Addr} {v : Byte}
    (hr : busRead a s = .done v t) : t.Storage := by
  rcases busRead_done hr with rfl | ⟨_, _, _, rfl⟩ | ⟨_, _, _, rfl⟩ | ⟨_, c, n, rfl⟩ | ⟨_, rfl⟩
  · exact h
  · exact h.setPpu (h.ppu.registers ⟨rfl, rfl, rfl, rfl⟩)
  · exact h.setPpu (h.ppu.registers ⟨rfl, rfl, rfl, rfl⟩)
  · exact h.of_eq rfl rfl h.ppu rfl rfl
  · exact h.of_eq rfl rfl h.ppu rfl rfl

/-- The copies of an OAM DMA keep the storage invariant. -/
theorem State.Storage.dmaCopy {page : Byte} {n : Nat} {s t : State} (h : s.Storage)
    (hd : dmaCopy page n s = .done () t) : t.Storage := by
  induction n generalizing s with
  | zero => cases hd; exact h
  | succ n ih =>
    rw [dmaCopy_succ] at hd
    obtain ⟨v, u, hu, hd⟩ := Access.bind_done hd
    have hs := h.busRead hu
    exact ih (hs.setPpu (hs.ppu.oamWrite (by omega) v _ rfl)) hd

/-- A write keeps the storage invariant. -/
theorem State.Storage.busWrite {s t : State} (h : s.Storage) {a : Addr} {v : Byte}
    (hw : busWrite a v s = .done () t) : t.Storage := by
  rcases busWrite_cases a v s with ⟨_, h'⟩ | ⟨_, _, h'⟩ | ⟨_, h'⟩ | ⟨_, h'⟩ | ⟨h1, h2, h3, h4, h'⟩ | ⟨_, _, h'⟩ | ⟨_, h'⟩ <;>
    rw [h'] at hw
  · cases hw
    exact h.ramWrite a v
  · cases hw
    exact h.ppuWrite a v
  · obtain ⟨_, u, hu, hd⟩ := Access.bind_done hw
    cases hd
    have := h.dmaCopy hu
    exact this.of_eq rfl rfl this.ppu rfl rfl
  · cases hw
    unfold ctlWrite
    split
    · exact h.of_eq rfl rfl h.ppu rfl rfl
    · split
      · exact h.of_eq rfl rfl h.ppu rfl rfl
      · exact h
  · cases hw
    exact h.apuWrite v h1 h2 h3 h4
  · cases hw
    exact h
  · cases hw
    exact h.mapperWrite a v

end Sys2Proof.Machine
end

