-- ==== Sys2Proof/Laws/Ops.lean ====
section
/-! SUPPORT. What each shared operation can do, said once: the stack, the pointers and the vectors are
the bus accesses the spec writes, and each instruction shape is a read, a write and an update. -/

namespace Sys2Proof.Machine

/-! ### Stack -/

theorem toNat_stackAddr (sp : Byte) : (stackAddr sp).toNat = 0x100 + sp.toNat := by
  simp [stackAddr, toNat_word]

@[simp] theorem ramIndex_stackAddr (sp : Byte) : ramIndex (stackAddr sp) = 0x100 + sp.toNat := by
  have := sp.isLt
  simp only [ramIndex, toNat_stackAddr]
  omega

/-- `Push(v)` is the bus write of R55. -/
theorem push_is_busWrite (v : Byte) (s : State) :
    busWrite (stackAddr s.sp) v s = .done () (ramWrite (stackAddr s.sp) v s) ∧
    push v s = (ramWrite (stackAddr s.sp) v s).setSp (s.sp - 1) :=
  ⟨busWrite_ram (by have := s.sp.isLt; rw [toNat_stackAddr]; omega), rfl⟩

/-- `Pull()` is the bus read of R56. -/
theorem pull_is_busRead (s : State) :
    busRead (stackAddr (s.sp + 1)) s = .done (pull s).1 s ∧ (pull s).2 = s.setSp (s.sp + 1) :=
  ⟨busRead_ram (by have := (s.sp + 1).isLt; rw [toNat_stackAddr]; omega), rfl⟩

@[simp] theorem push_sp (v : Byte) (s : State) : (push v s).sp = s.sp - 1 := rfl

theorem push_eq (v : Byte) (s : State) :
    push v s = { s with sp := s.sp - 1, ram := Memory.write s.ram (0x100 + s.sp.toNat) v } := by
  simp [push, ramWrite, State.setRam, State.setSp]

theorem pull_eq (s : State) :
    pull s = (Memory.read s.ram (0x100 + (s.sp + 1).toNat), { s with sp := s.sp + 1 }) := by
  simp [pull, ramRead, State.setSp]

/-- A pull after a push gives the byte back. -/
theorem pull_push (v : Byte) (s : State) :
    pull (push v s) = (v, { s with ram := (push v s).ram }) := by
  simp [pull_eq, push_eq]

theorem State.Storage.push {s : State} (h : s.Storage) (v : Byte) : (push v s).Storage := by
  have := h.ramWrite (stackAddr s.sp) v
  exact this.of_eq rfl rfl this.ppu rfl rfl

/-! ### Pointers and vectors -/

theorem toNat_zext_add_one (p : Byte) : (zext p + 1).toNat = p.toNat + 1 := by
  have := p.isLt
  rw [BitVec.toNat_add, toNat_zext]
  simp
  omega

/-- `ZpPointer(p)` with `ZP_POINTER_WRAP = none` is the two-byte read of R133. -/
theorem zpPointer_is_busRead16 {s : State} (h : s.params.zpPointerWrap = .none) (p : Byte) :
    busRead16 (zext p) s = .done (zpPointer p s) s := by
  have := p.isLt
  simp only [busRead16, toNat_zext, zpPointer, h]
  rw [if_pos (by omega)]

/-- `ZpPointer(p)` with `ZP_POINTER_WRAP = wrap` is the two one-byte reads of R133. -/
theorem zpPointer_is_two_reads {s : State} (h : s.params.zpPointerWrap = .wrap) (p : Byte) :
    busRead (zext p) s = .done (lo (zpPointer p s)) s ∧
    busRead (zext (p + 1)) s = .done (hi (zpPointer p s)) s := by
  have h1 := p.isLt
  have h2 := (p + 1).isLt
  rw [busRead_ram (by rw [toNat_zext]; omega), busRead_ram (by rw [toNat_zext]; omega)]
  simp [zpPointer, h]

/-- A vector read is the two-byte read of R59, for any vector in the mapper's space. -/
theorem readVector_is_busRead16 {a : Addr} (s : State) (h : 0x8000 ≤ a.toNat) (h' : a.toNat < 0xFFFF) :
    busRead16 a s = .done (readVector a s).1 (readVector a s).2 := by
  have ha : (a + 1).toNat = a.toNat + 1 := by
    rw [BitVec.toNat_add]
    simp
    omega
  unfold busRead16
  rw [if_neg (by omega), busRead_mapper h, Access.bind_of_done, busRead_mapper (by omega)]
  rfl

/-- A vector read changes nothing but the count of draws. -/
theorem readVector_state (a : Addr) (s : State) :
    (readVector a s).2 = s.setDraws (readVector a s).2.draws := by
  unfold readVector
  simp only []
  rcases mapperRead_state a s with h | h <;> rcases mapperRead_state (a + 1) (mapperRead a s).2 with h' | h' <;>
    rw [h'] <;> rw [h] <;> rfl

/-! ### Operands -/

/-- A read through a mode touches no CPU register. -/
theorem modeRead_keeps {p : Place} {s t : State} {v : Byte} (h : modeRead p s = .done v t) :
    t = { s with ppu := t.ppu, ctl := t.ctl, draws := t.draws, buttonDraws := t.buttonDraws } := by
  cases p with
  | memory ea => exact busRead_keeps h
  | accumulator => cases h; rfl
  | immediate w => cases h; rfl
  | relative d => cases h; rfl

/-- A readable operand is read. -/
theorem modeRead_of_readable {o : Operand} {s : State} (h : o.readable s = true) :
    ∃ v u, modeRead (place o s) s = .done v u := by
  unfold Operand.readable at h
  cases hp : place o s with
  | memory ea =>
    rw [hp] at h
    exact busRead_of_readable s h
  | accumulator => exact ⟨_, _, rfl⟩
  | immediate w => exact ⟨_, _, rfl⟩
  | relative d => exact ⟨_, _, rfl⟩

/-- An operand that is not readable faults. -/
theorem modeRead_of_not_readable {o : Operand} {s : State} (h : o.readable s = false) :
    ∃ f, modeRead (place o s) s = .raised f := by
  unfold Operand.readable at h
  split at h
  · rename_i ea hp
    rw [hp]
    exact busRead_of_not_readable s h
  · cases h

/-! ### The instruction shapes -/

theorem load_of_done {r : Reg} {o : Operand} {s u : State} {v : Byte}
    (h : modeRead (place o s) s = .done v u) :
    load r o s = .next (advance o (setZN v (u.setReg r v))) := by
  simp [load, h]

theorem load_of_raised {r : Reg} {o : Operand} {s : State} {f : Fault}
    (h : modeRead (place o s) s = .raised f) : load r o s = .fault f := by
  simp [load, h]

theorem load_next {r : Reg} {o : Operand} {s t : State} (h : load r o s = .next t) :
    ∃ v u, modeRead (place o s) s = .done v u ∧ t = advance o (setZN v (u.setReg r v)) := by
  obtain ⟨v, u, hu, ht⟩ := Access.andThen_next h
  cases ht
  exact ⟨v, u, hu, rfl⟩

theorem accumulate_of_done {f : Byte → Byte → Flags → Byte × Flags} {o : Operand} {s u : State} {m : Byte}
    (h : modeRead (place o s) s = .done m u) :
    accumulate f o s = .next (advance o ((u.setA (f u.a m u.p).1).setP (f u.a m u.p).2)) := by
  simp [accumulate, h]

theorem accumulate_of_raised {f : Byte → Byte → Flags → Byte × Flags} {o : Operand} {s : State} {e : Fault}
    (h : modeRead (place o s) s = .raised e) : accumulate f o s = .fault e := by
  simp [accumulate, h]

theorem accumulate_next {f : Byte → Byte → Flags → Byte × Flags} {o : Operand} {s t : State}
    (h : accumulate f o s = .next t) :
    ∃ m u, modeRead (place o s) s = .done m u ∧
      t = advance o ((u.setA (f u.a m u.p).1).setP (f u.a m u.p).2) := by
  obtain ⟨m, u, hu, ht⟩ := Access.andThen_next h
  cases ht
  exact ⟨m, u, hu, rfl⟩

theorem testFlags_of_done {f : Byte → Byte → Flags → Flags} {r : Reg} {o : Operand} {s u : State} {m : Byte}
    (h : modeRead (place o s) s = .done m u) :
    testFlags f r o s = .next (advance o (u.setP (f (u.reg r) m u.p))) := by
  simp [testFlags, h]

theorem testFlags_of_raised {f : Byte → Byte → Flags → Flags} {r : Reg} {o : Operand} {s : State} {e : Fault}
    (h : modeRead (place o s) s = .raised e) : testFlags f r o s = .fault e := by
  simp [testFlags, h]

theorem testFlags_next {f : Byte → Byte → Flags → Flags} {r : Reg} {o : Operand} {s t : State}
    (h : testFlags f r o s = .next t) :
    ∃ m u, modeRead (place o s) s = .done m u ∧ t = advance o (u.setP (f (u.reg r) m u.p)) := by
  obtain ⟨m, u, hu, ht⟩ := Access.andThen_next h
  cases ht
  exact ⟨m, u, hu, rfl⟩

theorem store_of_done {opcode : Byte} {r : Reg} {o : Operand} {s u : State}
    (h : modeWrite opcode (place o s) (s.reg r) s = .done () u) :
    store opcode r o s = .next (advance o u) := by
  simp [store, h]

theorem store_of_raised {opcode : Byte} {r : Reg} {o : Operand} {s : State} {e : Fault}
    (h : modeWrite opcode (place o s) (s.reg r) s = .raised e) : store opcode r o s = .fault e := by
  simp [store, h]

theorem store_next {opcode : Byte} {r : Reg} {o : Operand} {s t : State} (h : store opcode r o s = .next t) :
    ∃ u, modeWrite opcode (place o s) (s.reg r) s = .done () u ∧ t = advance o u := by
  obtain ⟨_, u, hu, ht⟩ := Access.andThen_next h
  cases ht
  exact ⟨u, hu, rfl⟩

theorem modify_of_done {opcode : Byte} {f : Byte → Flags → Byte × Flags} {o : Operand} {s u w : State} {v : Byte}
    (h : modeRead (place o s) s = .done v u)
    (h' : modeWrite opcode (place o s) (f v u.p).1 u = .done () w) :
    modify opcode f o s = .next (advance o (w.setP (f v u.p).2)) := by
  simp [modify, h, h']

theorem modify_of_raised {opcode : Byte} {f : Byte → Flags → Byte × Flags} {o : Operand} {s : State} {e : Fault}
    (h : modeRead (place o s) s = .raised e) : modify opcode f o s = .fault e := by
  simp [modify, h]

theorem modify_next {opcode : Byte} {f : Byte → Flags → Byte × Flags} {o : Operand} {s t : State}
    (h : modify opcode f o s = .next t) :
    ∃ v u w, modeRead (place o s) s = .done v u ∧
      modeWrite opcode (place o s) (f v u.p).1 u = .done () w ∧
      t = advance o (w.setP (f v u.p).2) := by
  obtain ⟨v, u, hu, ht⟩ := Access.andThen_next h
  obtain ⟨_, w, hw, ht⟩ := Access.andThen_next ht
  cases ht
  exact ⟨v, u, w, hu, hw, rfl⟩

/-! ### Storage -/

theorem State.Storage.modeRead {s u : State} (h : s.Storage) {p : Place} {v : Byte}
    (hr : modeRead p s = .done v u) : u.Storage := by
  cases p with
  | accumulator => cases hr; exact h
  | immediate w => cases hr; exact h
  | memory ea => exact h.busRead hr
  | relative d => cases hr; exact h

theorem State.Storage.modeWrite {s u : State} (h : s.Storage) {opcode : Byte} {p : Place} {v : Byte}
    (hw : modeWrite opcode p v s = .done () u) : u.Storage := by
  cases p with
  | accumulator => cases hw; exact h.of_eq rfl rfl h.ppu rfl rfl
  | immediate w => cases hw
  | memory ea => exact h.busWrite hw
  | relative d => cases hw

/-- Registers, flags and PC are no part of the storage. -/
theorem State.Storage.registers {s t : State} (h : s.Storage)
    (ht : t = { s with a := t.a, x := t.x, y := t.y, sp := t.sp, pc := t.pc, p := t.p }) : t.Storage := by
  rw [ht]
  exact h.of_eq rfl rfl h.ppu rfl rfl

theorem State.Storage.setReg {s : State} (h : s.Storage) (r : Reg) (v : Byte) : (s.setReg r v).Storage := by
  cases r <;> exact h.registers rfl

theorem State.Storage.load {r : Reg} {o : Operand} {s t : State} (h : s.Storage) (hn : load r o s = .next t) :
    t.Storage := by
  obtain ⟨v, u, hu, rfl⟩ := load_next hn
  exact ((h.modeRead hu).setReg r v).registers rfl

theorem State.Storage.store {opcode : Byte} {r : Reg} {o : Operand} {s t : State} (h : s.Storage)
    (hn : store opcode r o s = .next t) : t.Storage := by
  obtain ⟨u, hu, rfl⟩ := store_next hn
  exact (h.modeWrite hu).registers rfl

theorem State.Storage.accumulate {f : Byte → Byte → Flags → Byte × Flags} {o : Operand} {s t : State}
    (h : s.Storage) (hn : accumulate f o s = .next t) : t.Storage := by
  obtain ⟨m, u, hu, rfl⟩ := accumulate_next hn
  exact (h.modeRead hu).registers rfl

theorem State.Storage.testFlags {f : Byte → Byte → Flags → Flags} {r : Reg} {o : Operand} {s t : State}
    (h : s.Storage) (hn : testFlags f r o s = .next t) : t.Storage := by
  obtain ⟨m, u, hu, rfl⟩ := testFlags_next hn
  exact (h.modeRead hu).registers rfl

theorem State.Storage.modify {opcode : Byte} {f : Byte → Flags → Byte × Flags} {o : Operand} {s t : State}
    (h : s.Storage) (hn : modify opcode f o s = .next t) : t.Storage := by
  obtain ⟨v, u, w, hu, hw, rfl⟩ := modify_next hn
  exact ((h.modeRead hu).modeWrite hw).registers rfl

end Sys2Proof.Machine
end

