-- ==== Sys2Proof/Laws/Exec.lean ====
section
/-! SUPPORT. The one case analysis over all instructions: what shape each meaning has. Facts about
every instruction follow from it. -/

namespace Sys2Proof.Machine

/-- The operand of a three-byte row is the word its two operand bytes spell. -/
@[simp] theorem Operand.ofMode_absolute (w : Addr) :
    Operand.ofMode .absolute [lo w, hi w] = some (.absolute w) := by
  simp [Operand.ofMode]

@[simp] theorem Operand.ofMode_absoluteX (w : Addr) :
    Operand.ofMode .absoluteX [lo w, hi w] = some (.absoluteX w) := by
  simp [Operand.ofMode]

@[simp] theorem Operand.ofMode_absoluteY (w : Addr) :
    Operand.ofMode .absoluteY [lo w, hi w] = some (.absoluteY w) := by
  simp [Operand.ofMode]

/-- The shape of an instruction's meaning in a state. -/
inductive ExecShape (i : Instr) (s : State) : Prop
  | load (r : Reg) (o : Operand) (ho : i.operand = some o) (h : exec i s = load r o s)
  | store (r : Reg) (o : Operand) (ho : i.operand = some o) (h : exec i s = store i.info.opcode r o s)
  | accumulate (f : Byte → Byte → Flags → Byte × Flags) (o : Operand) (ho : i.operand = some o)
      (h : exec i s = accumulate f o s)
  | testFlags (f : Byte → Byte → Flags → Flags) (r : Reg) (o : Operand) (ho : i.operand = some o)
      (h : exec i s = testFlags f r o s)
  | modify (f : Byte → Flags → Byte × Flags) (o : Operand) (ho : i.operand = some o)
      (h : exec i s = modify i.info.opcode f o s)
  | registers (t : State) (h : exec i s = .next t)
      (ht : t = { s with a := t.a, x := t.x, y := t.y, sp := t.sp, pc := t.pc, p := t.p })
  | push (v : Byte) (h : exec i s = .next (push v s))
  | jsr (w : Addr) (hi : i = .jsr w)
  | jmpIndirect (w : Addr) (hi : i = .jmpInd w)

/-- A branch changes PC alone. -/
theorem branch_registers {i : Instr} {s : State} (taken : Bool) (d : Byte)
    (h : exec i s = branch taken d s) : ExecShape i s :=
  .registers _ h (by split <;> rfl)

/-- Every meaning has one of the shapes. -/
theorem exec_shape (i : Instr) (s : State) : ExecShape i s := by
  cases i with
  | ldaImm _ | ldaZp _ | ldaZpX _ | ldaIndX _ | ldaIndY _ | ldxImm _ | ldxZp _ | ldxZpY _ | ldyImm _
  | ldyZp _ | ldyZpX _ =>
    exact .load _ _ rfl rfl
  | ldaAbs _ | ldxAbs _ | ldyAbs _ =>
    exact .load _ _ (Operand.ofMode_absolute _) rfl
  | ldaAbsX _ | ldyAbsX _ =>
    exact .load _ _ (Operand.ofMode_absoluteX _) rfl
  | ldaAbsY _ | ldxAbsY _ =>
    exact .load _ _ (Operand.ofMode_absoluteY _) rfl
  | staZp _ | staZpX _ | staIndX _ | staIndY _ | stxZp _ | stxZpY _ | styZp _ | styZpX _ =>
    exact .store _ _ rfl rfl
  | staAbs _ | stxAbs _ | styAbs _ =>
    exact .store _ _ (Operand.ofMode_absolute _) rfl
  | staAbsX _ =>
    exact .store _ _ (Operand.ofMode_absoluteX _) rfl
  | staAbsY _ =>
    exact .store _ _ (Operand.ofMode_absoluteY _) rfl
  | tax | tay | txa | tya | tsx | txs | inx | iny | dex | dey | jmpAbs _ | rts | rti | pla | plp | clc
  | sec | cli | sei | clv | cld | sed | nop | nopU1A | nopU3A | nopU5A | nopU7A | nopUDA | nopUFA
  | nopU80 _ | nopU82 _ | nopU89 _ | nopUC2 _ | nopUE2 _ | nopU04 _ | nopU44 _ | nopU64 _ | nopU14 _
  | nopU34 _ | nopU54 _ | nopU74 _ | nopUD4 _ | nopUF4 _ | nopU0C _ | nopU1C _ | nopU3C _ | nopU5C _
  | nopU7C _ | nopUDC _ | nopUFC _ =>
    exact .registers _ rfl rfl
  | adcImm _ | adcZp _ | adcZpX _ | adcIndX _ | adcIndY _ | sbcImm _ | sbcZp _ | sbcZpX _ | sbcIndX _
  | sbcIndY _ | andImm _ | andZp _ | andZpX _ | andIndX _ | andIndY _ | oraImm _ | oraZp _ | oraZpX _
  | oraIndX _ | oraIndY _ | eorImm _ | eorZp _ | eorZpX _ | eorIndX _ | eorIndY _ =>
    exact .accumulate _ _ rfl rfl
  | adcAbs _ | sbcAbs _ | andAbs _ | oraAbs _ | eorAbs _ =>
    exact .accumulate _ _ (Operand.ofMode_absolute _) rfl
  | adcAbsX _ | sbcAbsX _ | andAbsX _ | oraAbsX _ | eorAbsX _ =>
    exact .accumulate _ _ (Operand.ofMode_absoluteX _) rfl
  | adcAbsY _ | sbcAbsY _ | andAbsY _ | oraAbsY _ | eorAbsY _ =>
    exact .accumulate _ _ (Operand.ofMode_absoluteY _) rfl
  | cmpImm _ | cmpZp _ | cmpZpX _ | cmpIndX _ | cmpIndY _ | cpxImm _ | cpxZp _ | cpyImm _ | cpyZp _
  | bitZp _ =>
    exact .testFlags _ _ _ rfl rfl
  | cmpAbs _ | cpxAbs _ | cpyAbs _ | bitAbs _ =>
    exact .testFlags _ _ _ (Operand.ofMode_absolute _) rfl
  | cmpAbsX _ =>
    exact .testFlags _ _ _ (Operand.ofMode_absoluteX _) rfl
  | cmpAbsY _ =>
    exact .testFlags _ _ _ (Operand.ofMode_absoluteY _) rfl
  | incZp _ | incZpX _ | decZp _ | decZpX _ | aslA | aslZp _ | aslZpX _ | lsrA | lsrZp _ | lsrZpX _
  | rolA | rolZp _ | rolZpX _ | rorA | rorZp _ | rorZpX _ =>
    exact .modify _ _ rfl rfl
  | incAbs _ | decAbs _ | aslAbs _ | lsrAbs _ | rolAbs _ | rorAbs _ =>
    exact .modify _ _ (Operand.ofMode_absolute _) rfl
  | incAbsX _ | decAbsX _ | aslAbsX _ | lsrAbsX _ | rolAbsX _ | rorAbsX _ =>
    exact .modify _ _ (Operand.ofMode_absoluteX _) rfl
  | bpl _ | bmi _ | bvc _ | bvs _ | bcc _ | bcs _ | bne _ | beq _ =>
    exact branch_registers _ _ rfl
  | jmpInd _ =>
    exact .jmpIndirect _ rfl
  | jsr _ =>
    exact .jsr _ rfl
  | pha | php =>
    exact .push _ rfl

/-- An instruction that completes keeps the storage invariant. -/
theorem State.Storage.exec {i : Instr} {s t : State} (h : s.Storage) (hn : exec i s = .next t) : t.Storage := by
  cases exec_shape i s with
  | load r o _ he => exact h.load (he ▸ hn)
  | store r o _ he => exact h.store (he ▸ hn)
  | accumulate f o _ he => exact h.accumulate (he ▸ hn)
  | testFlags f r o _ he => exact h.testFlags (he ▸ hn)
  | modify f o _ he => exact h.modify (he ▸ hn)
  | registers u he hu =>
    rw [he] at hn
    cases hn
    exact h.registers hu
  | push v he =>
    rw [he] at hn
    cases hn
    exact h.push v
  | jsr w hi =>
    subst hi
    cases hn
    exact ((h.push _).push _).registers rfl
  | jmpIndirect w hi =>
    subst hi
    obtain ⟨l, u, hu, hn⟩ := Access.andThen_next hn
    obtain ⟨v, w, hw, hn⟩ := Access.andThen_next hn
    cases hn
    exact ((h.busRead hu).busRead hw).registers rfl

end Sys2Proof.Machine
end

