-- ==== Sys2Proof/Laws/Clock.lean ====
section
/-! SUPPORT. What a CPU step and a tick can do, said once. -/

namespace Sys2Proof.Machine

/-- A counting step. -/
theorem cpuStep_counting {s : State} {n : Nat} (h : s.cyclesRemaining = n + 1) :
    cpuStep s = .next { s with cyclesRemaining := n } := by
  simp [cpuStep, h]

/-- A step at an instruction boundary. -/
theorem cpuStep_boundary {s : State} (h : s.cyclesRemaining = 0) :
    cpuStep s = (fetch (takeNmi s)).andThen execute := by
  simp [cpuStep, h]

theorem tick_halted {s : State} (h : s.halted ≠ none) : tick s = .next s := by
  unfold tick
  split
  · rfl
  · exact absurd ‹_› h

/-- A tick between CPU steps. -/
theorem tick_between {s : State} (h : s.halted = none) (h' : s.tick % 3 ≠ 0) :
    tick s = .next (nextTick (videoStep s)) := by
  unfold tick
  rw [h]
  exact if_neg h'

/-- A tick with a CPU step. -/
theorem tick_cpu {s : State} (h : s.halted = none) (h' : s.tick % 3 = 0) :
    tick s = cpuTick (videoStep s) := by
  unfold tick
  rw [h]
  exact if_pos h'

/-- The video step writes PPUSTATUS and its private state only. -/
theorem videoStep_eq (s : State) :
    videoStep s = { s with
      ppu := { s.ppu with status := (videoStep s).ppu.status }, video := (videoStep s).video } := rfl

/-- The audio step writes the reload flags and its private state only. -/
theorem audioStep_eq (s : State) :
    audioStep s = { s with
      apu := { s.apu with
        reloadLinear := (audioStep s).apu.reloadLinear, reloadNoise := (audioStep s).apu.reloadNoise }
      audio := (audioStep s).audio } := rfl

@[simp] theorem videoStep_tick (s : State) : (videoStep s).tick = s.tick := rfl
@[simp] theorem videoStep_halted (s : State) : (videoStep s).halted = s.halted := rfl
@[simp] theorem videoStep_cyclesRemaining (s : State) :
    (videoStep s).cyclesRemaining = s.cyclesRemaining := rfl
@[simp] theorem audioStep_tick (s : State) : (audioStep s).tick = s.tick := rfl
@[simp] theorem audioStep_halted (s : State) : (audioStep s).halted = s.halted := rfl
@[simp] theorem audioStep_cyclesRemaining (s : State) :
    (audioStep s).cyclesRemaining = s.cyclesRemaining := rfl

theorem State.Storage.videoStep {s : State} (h : s.Storage) : (videoStep s).Storage :=
  h.of_eq rfl rfl (h.ppu.registers ⟨rfl, rfl, rfl, rfl⟩) rfl rfl

theorem State.Storage.audioStep {s : State} (h : s.Storage) : (audioStep s).Storage :=
  h.of_eq rfl rfl h.ppu rfl rfl

/-- Three pushes change SP and RAM only. -/
theorem push3_frame (b c d : Byte) (s : State) :
    push b (push c (push d s)) =
      { s with sp := s.sp - 3, ram := (push b (push c (push d s))).ram } := by
  simp [push_eq]
  bv_omega

/-- NMI entry, with its vector read as a pair. -/
theorem nmiEntry_eq (s : State) :
    nmiEntry s =
      let t := push (s.p.toByte false) (pushWord s.pc s)
      let v := readVector nmiVector (t.setP { s.p with i := true })
      { s with
        sp := s.sp - 3, ram := t.ram, p := { s.p with i := true }, pc := v.1, draws := v.2.draws } := by
  have ht := push3_frame (s.p.toByte false) (lo s.pc) (hi s.pc) s
  have hp : (push (s.p.toByte false) (pushWord s.pc s)).p = s.p := rfl
  simp only [nmiEntry, hp]
  rw [readVector_state]
  simp only [State.setDraws_draws]
  generalize readVector nmiVector _ = v
  simp only [pushWord] at *
  generalize push (s.p.toByte false) _ = t at *
  rw [ht]
  rfl

/-- The NMI sample and entry change the CPU's registers, page 1 of RAM, `nmi_prev` and the count of
draws, nothing else. -/
theorem takeNmi_frame (s : State) :
    ∃ sp pc p ram nmiPrev draws, takeNmi s =
      { s with sp := sp, pc := pc, p := p, ram := ram, nmiPrev := nmiPrev, draws := draws } := by
  unfold takeNmi
  simp only []
  split
  · rw [nmiEntry_eq]
    exact ⟨_, _, _, _, _, _, rfl⟩
  · exact ⟨_, _, _, _, _, _, rfl⟩

theorem State.Storage.takeNmi {s : State} (h : s.Storage) : (takeNmi s).Storage := by
  unfold Machine.takeNmi
  simp only []
  split
  · have h1 : (nmiSample s).2.Storage := h.of_eq rfl rfl h.ppu rfl rfl
    have h2 := ((h1.push (hi s.pc)).push (lo s.pc)).push (s.p.toByte false)
    unfold nmiEntry
    simp only []
    rw [readVector_state]
    exact h2.of_eq rfl rfl h2.ppu rfl rfl
  · exact h.of_eq rfl rfl h.ppu rfl rfl

/-- A two-byte read touches no CPU register. -/
theorem busRead16_keeps {a w : Addr} {s t : State} (h : busRead16 a s = .done w t) :
    t = { s with ppu := t.ppu, ctl := t.ctl, draws := t.draws, buttonDraws := t.buttonDraws } := by
  unfold busRead16 at h
  split at h
  · cases h
    rfl
  · obtain ⟨l, u, hu, h⟩ := Access.bind_done h
    obtain ⟨g, v, hv, h⟩ := Access.bind_done h
    cases h
    rw [busRead_keeps hv, busRead_keeps hu]

/-- A fetch that completes changes PC and what its reads change. -/
theorem fetch_keeps {s t : State} {i : Instr} (h : fetch s = .done i t) :
    t = { s with
      pc := s.pc + 1, ppu := t.ppu, ctl := t.ctl, draws := t.draws, buttonDraws := t.buttonDraws } := by
  obtain ⟨opcode, u, hu, h⟩ := Access.bind_done h
  have hk := busRead_keeps hu
  have h1 : u.setPc (u.pc + 1) = { s with
      pc := s.pc + 1, ppu := u.ppu, ctl := u.ctl, draws := u.draws, buttonDraws := u.buttonDraws } := by
    rw [hk]
    rfl
  simp only [h1] at h
  split at h
  · cases h
  · rename_i e he
    cases e with
    | f1 j =>
      cases h
      rfl
    | f2 make =>
      obtain ⟨b, v, hv, h⟩ := Access.bind_done h
      cases h
      rw [busRead_keeps hv]
    | f3 make =>
      obtain ⟨w, v, hv, h⟩ := Access.bind_done h
      cases h
      rw [busRead16_keeps hv]
    | skip2 make =>
      cases h
      rfl
    | skip3 make =>
      cases h
      rfl

/-- A two-byte read that completes keeps the storage invariant. -/
theorem State.Storage.busRead16 {s t : State} (h : s.Storage) {a w : Addr} (hr : busRead16 a s = .done w t) :
    t.Storage := by
  unfold Machine.busRead16 at hr
  split at hr
  · cases hr
    exact h
  · obtain ⟨l, u, hu, hr⟩ := Access.bind_done hr
    obtain ⟨g, v, hv, hr⟩ := Access.bind_done hr
    cases hr
    exact (h.busRead hu).busRead hv

/-- A fetch that completes keeps the storage invariant. -/
theorem State.Storage.fetch {s t : State} {i : Instr} (h : s.Storage) (hf : fetch s = .done i t) : t.Storage := by
  obtain ⟨opcode, u, hu, hf⟩ := Access.bind_done hf
  have h1 : (u.setPc (u.pc + 1)).Storage := (h.busRead hu).registers rfl
  simp only [] at hf
  split at hf
  · cases hf
  · rename_i e he
    cases e with
    | f1 j => cases hf; exact h1
    | f2 make =>
      obtain ⟨b, v, hv, hf⟩ := Access.bind_done hf
      cases hf
      exact h1.busRead hv
    | f3 make =>
      obtain ⟨w, v, hv, hf⟩ := Access.bind_done hf
      cases hf
      exact h1.busRead16 hv
    | skip2 make => cases hf; exact h1
    | skip3 make => cases hf; exact h1

/-- A CPU step keeps the storage invariant. -/
theorem State.Storage.cpuStep {s t : State} (h : s.Storage) (hc : cpuStep s = .next t) : t.Storage := by
  unfold Machine.cpuStep at hc
  split at hc
  · cases hc
    exact h.of_eq rfl rfl h.ppu rfl rfl
  · obtain ⟨i, u, hu, hc⟩ := Access.andThen_next hc
    have h1 := h.takeNmi.fetch hu
    unfold execute at hc
    split at hc <;> cases hc
    rename_i v hv
    have h2 := h1.exec hv
    exact h2.of_eq rfl rfl h2.ppu rfl rfl

end Sys2Proof.Machine
end

