-- ==== Sys2Proof/Laws/Flags.lean ====
section
/-! SUPPORT. The flag helpers, in the terms statements use. -/

namespace Sys2Proof.Machine

theorem bit_seven (v : Byte) : bit v 7 = v.msb := by
  simp [bit, BitVec.msb_eq_getLsbD_last]

/-- `setZN`, flag by flag (R13). -/
theorem Flags.setZN_eq (p : Flags) (v : Byte) :
    p.setZN v = { p with z := decide (v = 0), n := v.msb } := by
  simp [Flags.setZN, bit_seven, beq_eq_decide]

/-- Pulling a pushed status byte gives the flags back, whatever its bit 4 (R25). -/
theorem Flags.ofByte_toByte (p : Flags) (b : Bool) : Flags.ofByte (p.toByte b) = p := by
  obtain ⟨c, z, i, d, v, n⟩ := p
  cases c <;> cases z <;> cases i <;> cases d <;> cases v <;> cases n <;> cases b <;> rfl

/-- The pushed status byte as a number (R25). -/
theorem Flags.toByte_eq (p : Flags) (b : Bool) :
    p.toByte b = BitVec.ofNat 8
      (128 * p.n.toNat + 64 * p.v.toNat + 32 + 16 * b.toNat + 8 * p.d.toNat + 4 * p.i.toNat +
        2 * p.z.toNat + p.c.toNat) := by
  obtain ⟨c, z, i, d, v, n⟩ := p
  cases c <;> cases z <;> cases i <;> cases d <;> cases v <;> cases n <;> cases b <;> rfl

end Sys2Proof.Machine
end

