-- ==== Sys2Proof/Laws/PerInstr.lean ====
section
/-! SUPPORT. Facts about every instruction as syntax, one lemma per constructor. -/

namespace Sys2Proof.Laws.EncodingLength

/-- The operand bytes of a mode (spec/30_encoding.md R120). -/
def modeBytes : AddrMode → Nat
  | .implied => 0
  | .accumulator => 0
  | .immediate => 1
  | .zeroPage => 1
  | .zeroPageX => 1
  | .zeroPageY => 1
  | .absolute => 2
  | .absoluteX => 2
  | .absoluteY => 2
  | .indirectX => 1
  | .indirectY => 1
  | .relative => 1
  | .indirect => 2

/-- The length of an instruction is fixed by its mode (R120), and its first byte is its opcode. -/
def Statement (i : Instr) : Prop :=
  (encode i).length = 1 + modeBytes i.info.mode ∧ (encode i).head? = some i.info.opcode

theorem ldaImm (op8 : Byte) : Statement (.ldaImm op8) := ⟨rfl, rfl⟩
theorem ldaZp (op8 : Byte) : Statement (.ldaZp op8) := ⟨rfl, rfl⟩
theorem ldaZpX (op8 : Byte) : Statement (.ldaZpX op8) := ⟨rfl, rfl⟩
theorem ldaAbs (op16 : Addr) : Statement (.ldaAbs op16) := ⟨rfl, rfl⟩
theorem ldaAbsX (op16 : Addr) : Statement (.ldaAbsX op16) := ⟨rfl, rfl⟩
theorem ldaAbsY (op16 : Addr) : Statement (.ldaAbsY op16) := ⟨rfl, rfl⟩
theorem ldaIndX (op8 : Byte) : Statement (.ldaIndX op8) := ⟨rfl, rfl⟩
theorem ldaIndY (op8 : Byte) : Statement (.ldaIndY op8) := ⟨rfl, rfl⟩
theorem ldxImm (op8 : Byte) : Statement (.ldxImm op8) := ⟨rfl, rfl⟩
theorem ldxZp (op8 : Byte) : Statement (.ldxZp op8) := ⟨rfl, rfl⟩
theorem ldxZpY (op8 : Byte) : Statement (.ldxZpY op8) := ⟨rfl, rfl⟩
theorem ldxAbs (op16 : Addr) : Statement (.ldxAbs op16) := ⟨rfl, rfl⟩
theorem ldxAbsY (op16 : Addr) : Statement (.ldxAbsY op16) := ⟨rfl, rfl⟩
theorem ldyImm (op8 : Byte) : Statement (.ldyImm op8) := ⟨rfl, rfl⟩
theorem ldyZp (op8 : Byte) : Statement (.ldyZp op8) := ⟨rfl, rfl⟩
theorem ldyZpX (op8 : Byte) : Statement (.ldyZpX op8) := ⟨rfl, rfl⟩
theorem ldyAbs (op16 : Addr) : Statement (.ldyAbs op16) := ⟨rfl, rfl⟩
theorem ldyAbsX (op16 : Addr) : Statement (.ldyAbsX op16) := ⟨rfl, rfl⟩
theorem staZp (op8 : Byte) : Statement (.staZp op8) := ⟨rfl, rfl⟩
theorem staZpX (op8 : Byte) : Statement (.staZpX op8) := ⟨rfl, rfl⟩
theorem staAbs (op16 : Addr) : Statement (.staAbs op16) := ⟨rfl, rfl⟩
theorem staAbsX (op16 : Addr) : Statement (.staAbsX op16) := ⟨rfl, rfl⟩
theorem staAbsY (op16 : Addr) : Statement (.staAbsY op16) := ⟨rfl, rfl⟩
theorem staIndX (op8 : Byte) : Statement (.staIndX op8) := ⟨rfl, rfl⟩
theorem staIndY (op8 : Byte) : Statement (.staIndY op8) := ⟨rfl, rfl⟩
theorem stxZp (op8 : Byte) : Statement (.stxZp op8) := ⟨rfl, rfl⟩
theorem stxZpY (op8 : Byte) : Statement (.stxZpY op8) := ⟨rfl, rfl⟩
theorem stxAbs (op16 : Addr) : Statement (.stxAbs op16) := ⟨rfl, rfl⟩
theorem styZp (op8 : Byte) : Statement (.styZp op8) := ⟨rfl, rfl⟩
theorem styZpX (op8 : Byte) : Statement (.styZpX op8) := ⟨rfl, rfl⟩
theorem styAbs (op16 : Addr) : Statement (.styAbs op16) := ⟨rfl, rfl⟩
theorem tax : Statement .tax := ⟨rfl, rfl⟩
theorem tay : Statement .tay := ⟨rfl, rfl⟩
theorem txa : Statement .txa := ⟨rfl, rfl⟩
theorem tya : Statement .tya := ⟨rfl, rfl⟩
theorem tsx : Statement .tsx := ⟨rfl, rfl⟩
theorem txs : Statement .txs := ⟨rfl, rfl⟩
theorem adcImm (op8 : Byte) : Statement (.adcImm op8) := ⟨rfl, rfl⟩
theorem adcZp (op8 : Byte) : Statement (.adcZp op8) := ⟨rfl, rfl⟩
theorem adcZpX (op8 : Byte) : Statement (.adcZpX op8) := ⟨rfl, rfl⟩
theorem adcAbs (op16 : Addr) : Statement (.adcAbs op16) := ⟨rfl, rfl⟩
theorem adcAbsX (op16 : Addr) : Statement (.adcAbsX op16) := ⟨rfl, rfl⟩
theorem adcAbsY (op16 : Addr) : Statement (.adcAbsY op16) := ⟨rfl, rfl⟩
theorem adcIndX (op8 : Byte) : Statement (.adcIndX op8) := ⟨rfl, rfl⟩
theorem adcIndY (op8 : Byte) : Statement (.adcIndY op8) := ⟨rfl, rfl⟩
theorem sbcImm (op8 : Byte) : Statement (.sbcImm op8) := ⟨rfl, rfl⟩
theorem sbcZp (op8 : Byte) : Statement (.sbcZp op8) := ⟨rfl, rfl⟩
theorem sbcZpX (op8 : Byte) : Statement (.sbcZpX op8) := ⟨rfl, rfl⟩
theorem sbcAbs (op16 : Addr) : Statement (.sbcAbs op16) := ⟨rfl, rfl⟩
theorem sbcAbsX (op16 : Addr) : Statement (.sbcAbsX op16) := ⟨rfl, rfl⟩
theorem sbcAbsY (op16 : Addr) : Statement (.sbcAbsY op16) := ⟨rfl, rfl⟩
theorem sbcIndX (op8 : Byte) : Statement (.sbcIndX op8) := ⟨rfl, rfl⟩
theorem sbcIndY (op8 : Byte) : Statement (.sbcIndY op8) := ⟨rfl, rfl⟩
theorem andImm (op8 : Byte) : Statement (.andImm op8) := ⟨rfl, rfl⟩
theorem andZp (op8 : Byte) : Statement (.andZp op8) := ⟨rfl, rfl⟩
theorem andZpX (op8 : Byte) : Statement (.andZpX op8) := ⟨rfl, rfl⟩
theorem andAbs (op16 : Addr) : Statement (.andAbs op16) := ⟨rfl, rfl⟩
theorem andAbsX (op16 : Addr) : Statement (.andAbsX op16) := ⟨rfl, rfl⟩
theorem andAbsY (op16 : Addr) : Statement (.andAbsY op16) := ⟨rfl, rfl⟩
theorem andIndX (op8 : Byte) : Statement (.andIndX op8) := ⟨rfl, rfl⟩
theorem andIndY (op8 : Byte) : Statement (.andIndY op8) := ⟨rfl, rfl⟩
theorem oraImm (op8 : Byte) : Statement (.oraImm op8) := ⟨rfl, rfl⟩
theorem oraZp (op8 : Byte) : Statement (.oraZp op8) := ⟨rfl, rfl⟩
theorem oraZpX (op8 : Byte) : Statement (.oraZpX op8) := ⟨rfl, rfl⟩
theorem oraAbs (op16 : Addr) : Statement (.oraAbs op16) := ⟨rfl, rfl⟩
theorem oraAbsX (op16 : Addr) : Statement (.oraAbsX op16) := ⟨rfl, rfl⟩
theorem oraAbsY (op16 : Addr) : Statement (.oraAbsY op16) := ⟨rfl, rfl⟩
theorem oraIndX (op8 : Byte) : Statement (.oraIndX op8) := ⟨rfl, rfl⟩
theorem oraIndY (op8 : Byte) : Statement (.oraIndY op8) := ⟨rfl, rfl⟩
theorem eorImm (op8 : Byte) : Statement (.eorImm op8) := ⟨rfl, rfl⟩
theorem eorZp (op8 : Byte) : Statement (.eorZp op8) := ⟨rfl, rfl⟩
theorem eorZpX (op8 : Byte) : Statement (.eorZpX op8) := ⟨rfl, rfl⟩
theorem eorAbs (op16 : Addr) : Statement (.eorAbs op16) := ⟨rfl, rfl⟩
theorem eorAbsX (op16 : Addr) : Statement (.eorAbsX op16) := ⟨rfl, rfl⟩
theorem eorAbsY (op16 : Addr) : Statement (.eorAbsY op16) := ⟨rfl, rfl⟩
theorem eorIndX (op8 : Byte) : Statement (.eorIndX op8) := ⟨rfl, rfl⟩
theorem eorIndY (op8 : Byte) : Statement (.eorIndY op8) := ⟨rfl, rfl⟩
theorem cmpImm (op8 : Byte) : Statement (.cmpImm op8) := ⟨rfl, rfl⟩
theorem cmpZp (op8 : Byte) : Statement (.cmpZp op8) := ⟨rfl, rfl⟩
theorem cmpZpX (op8 : Byte) : Statement (.cmpZpX op8) := ⟨rfl, rfl⟩
theorem cmpAbs (op16 : Addr) : Statement (.cmpAbs op16) := ⟨rfl, rfl⟩
theorem cmpAbsX (op16 : Addr) : Statement (.cmpAbsX op16) := ⟨rfl, rfl⟩
theorem cmpAbsY (op16 : Addr) : Statement (.cmpAbsY op16) := ⟨rfl, rfl⟩
theorem cmpIndX (op8 : Byte) : Statement (.cmpIndX op8) := ⟨rfl, rfl⟩
theorem cmpIndY (op8 : Byte) : Statement (.cmpIndY op8) := ⟨rfl, rfl⟩
theorem cpxImm (op8 : Byte) : Statement (.cpxImm op8) := ⟨rfl, rfl⟩
theorem cpxZp (op8 : Byte) : Statement (.cpxZp op8) := ⟨rfl, rfl⟩
theorem cpxAbs (op16 : Addr) : Statement (.cpxAbs op16) := ⟨rfl, rfl⟩
theorem cpyImm (op8 : Byte) : Statement (.cpyImm op8) := ⟨rfl, rfl⟩
theorem cpyZp (op8 : Byte) : Statement (.cpyZp op8) := ⟨rfl, rfl⟩
theorem cpyAbs (op16 : Addr) : Statement (.cpyAbs op16) := ⟨rfl, rfl⟩
theorem bitZp (op8 : Byte) : Statement (.bitZp op8) := ⟨rfl, rfl⟩
theorem bitAbs (op16 : Addr) : Statement (.bitAbs op16) := ⟨rfl, rfl⟩
theorem incZp (op8 : Byte) : Statement (.incZp op8) := ⟨rfl, rfl⟩
theorem incZpX (op8 : Byte) : Statement (.incZpX op8) := ⟨rfl, rfl⟩
theorem incAbs (op16 : Addr) : Statement (.incAbs op16) := ⟨rfl, rfl⟩
theorem incAbsX (op16 : Addr) : Statement (.incAbsX op16) := ⟨rfl, rfl⟩
theorem decZp (op8 : Byte) : Statement (.decZp op8) := ⟨rfl, rfl⟩
theorem decZpX (op8 : Byte) : Statement (.decZpX op8) := ⟨rfl, rfl⟩
theorem decAbs (op16 : Addr) : Statement (.decAbs op16) := ⟨rfl, rfl⟩
theorem decAbsX (op16 : Addr) : Statement (.decAbsX op16) := ⟨rfl, rfl⟩
theorem inx : Statement .inx := ⟨rfl, rfl⟩
theorem iny : Statement .iny := ⟨rfl, rfl⟩
theorem dex : Statement .dex := ⟨rfl, rfl⟩
theorem dey : Statement .dey := ⟨rfl, rfl⟩
theorem aslA : Statement .aslA := ⟨rfl, rfl⟩
theorem aslZp (op8 : Byte) : Statement (.aslZp op8) := ⟨rfl, rfl⟩
theorem aslZpX (op8 : Byte) : Statement (.aslZpX op8) := ⟨rfl, rfl⟩
theorem aslAbs (op16 : Addr) : Statement (.aslAbs op16) := ⟨rfl, rfl⟩
theorem aslAbsX (op16 : Addr) : Statement (.aslAbsX op16) := ⟨rfl, rfl⟩
theorem lsrA : Statement .lsrA := ⟨rfl, rfl⟩
theorem lsrZp (op8 : Byte) : Statement (.lsrZp op8) := ⟨rfl, rfl⟩
theorem lsrZpX (op8 : Byte) : Statement (.lsrZpX op8) := ⟨rfl, rfl⟩
theorem lsrAbs (op16 : Addr) : Statement (.lsrAbs op16) := ⟨rfl, rfl⟩
theorem lsrAbsX (op16 : Addr) : Statement (.lsrAbsX op16) := ⟨rfl, rfl⟩
theorem rolA : Statement .rolA := ⟨rfl, rfl⟩
theorem rolZp (op8 : Byte) : Statement (.rolZp op8) := ⟨rfl, rfl⟩
theorem rolZpX (op8 : Byte) : Statement (.rolZpX op8) := ⟨rfl, rfl⟩
theorem rolAbs (op16 : Addr) : Statement (.rolAbs op16) := ⟨rfl, rfl⟩
theorem rolAbsX (op16 : Addr) : Statement (.rolAbsX op16) := ⟨rfl, rfl⟩
theorem rorA : Statement .rorA := ⟨rfl, rfl⟩
theorem rorZp (op8 : Byte) : Statement (.rorZp op8) := ⟨rfl, rfl⟩
theorem rorZpX (op8 : Byte) : Statement (.rorZpX op8) := ⟨rfl, rfl⟩
theorem rorAbs (op16 : Addr) : Statement (.rorAbs op16) := ⟨rfl, rfl⟩
theorem rorAbsX (op16 : Addr) : Statement (.rorAbsX op16) := ⟨rfl, rfl⟩
theorem bpl (op8 : Byte) : Statement (.bpl op8) := ⟨rfl, rfl⟩
theorem bmi (op8 : Byte) : Statement (.bmi op8) := ⟨rfl, rfl⟩
theorem bvc (op8 : Byte) : Statement (.bvc op8) := ⟨rfl, rfl⟩
theorem bvs (op8 : Byte) : Statement (.bvs op8) := ⟨rfl, rfl⟩
theorem bcc (op8 : Byte) : Statement (.bcc op8) := ⟨rfl, rfl⟩
theorem bcs (op8 : Byte) : Statement (.bcs op8) := ⟨rfl, rfl⟩
theorem bne (op8 : Byte) : Statement (.bne op8) := ⟨rfl, rfl⟩
theorem beq (op8 : Byte) : Statement (.beq op8) := ⟨rfl, rfl⟩
theorem jmpAbs (op16 : Addr) : Statement (.jmpAbs op16) := ⟨rfl, rfl⟩
theorem jmpInd (op16 : Addr) : Statement (.jmpInd op16) := ⟨rfl, rfl⟩
theorem jsr (op16 : Addr) : Statement (.jsr op16) := ⟨rfl, rfl⟩
theorem rts : Statement .rts := ⟨rfl, rfl⟩
theorem rti : Statement .rti := ⟨rfl, rfl⟩
theorem pha : Statement .pha := ⟨rfl, rfl⟩
theorem php : Statement .php := ⟨rfl, rfl⟩
theorem pla : Statement .pla := ⟨rfl, rfl⟩
theorem plp : Statement .plp := ⟨rfl, rfl⟩
theorem clc : Statement .clc := ⟨rfl, rfl⟩
theorem sec : Statement .sec := ⟨rfl, rfl⟩
theorem cli : Statement .cli := ⟨rfl, rfl⟩
theorem sei : Statement .sei := ⟨rfl, rfl⟩
theorem clv : Statement .clv := ⟨rfl, rfl⟩
theorem cld : Statement .cld := ⟨rfl, rfl⟩
theorem sed : Statement .sed := ⟨rfl, rfl⟩
theorem nop : Statement .nop := ⟨rfl, rfl⟩
theorem nopU1A : Statement .nopU1A := ⟨rfl, rfl⟩
theorem nopU3A : Statement .nopU3A := ⟨rfl, rfl⟩
theorem nopU5A : Statement .nopU5A := ⟨rfl, rfl⟩
theorem nopU7A : Statement .nopU7A := ⟨rfl, rfl⟩
theorem nopUDA : Statement .nopUDA := ⟨rfl, rfl⟩
theorem nopUFA : Statement .nopUFA := ⟨rfl, rfl⟩
theorem nopU80 (op8 : Byte) : Statement (.nopU80 op8) := ⟨rfl, rfl⟩
theorem nopU82 (op8 : Byte) : Statement (.nopU82 op8) := ⟨rfl, rfl⟩
theorem nopU89 (op8 : Byte) : Statement (.nopU89 op8) := ⟨rfl, rfl⟩
theorem nopUC2 (op8 : Byte) : Statement (.nopUC2 op8) := ⟨rfl, rfl⟩
theorem nopUE2 (op8 : Byte) : Statement (.nopUE2 op8) := ⟨rfl, rfl⟩
theorem nopU04 (op8 : Byte) : Statement (.nopU04 op8) := ⟨rfl, rfl⟩
theorem nopU44 (op8 : Byte) : Statement (.nopU44 op8) := ⟨rfl, rfl⟩
theorem nopU64 (op8 : Byte) : Statement (.nopU64 op8) := ⟨rfl, rfl⟩
theorem nopU14 (op8 : Byte) : Statement (.nopU14 op8) := ⟨rfl, rfl⟩
theorem nopU34 (op8 : Byte) : Statement (.nopU34 op8) := ⟨rfl, rfl⟩
theorem nopU54 (op8 : Byte) : Statement (.nopU54 op8) := ⟨rfl, rfl⟩
theorem nopU74 (op8 : Byte) : Statement (.nopU74 op8) := ⟨rfl, rfl⟩
theorem nopUD4 (op8 : Byte) : Statement (.nopUD4 op8) := ⟨rfl, rfl⟩
theorem nopUF4 (op8 : Byte) : Statement (.nopUF4 op8) := ⟨rfl, rfl⟩
theorem nopU0C (op16 : Addr) : Statement (.nopU0C op16) := ⟨rfl, rfl⟩
theorem nopU1C (op16 : Addr) : Statement (.nopU1C op16) := ⟨rfl, rfl⟩
theorem nopU3C (op16 : Addr) : Statement (.nopU3C op16) := ⟨rfl, rfl⟩
theorem nopU5C (op16 : Addr) : Statement (.nopU5C op16) := ⟨rfl, rfl⟩
theorem nopU7C (op16 : Addr) : Statement (.nopU7C op16) := ⟨rfl, rfl⟩
theorem nopUDC (op16 : Addr) : Statement (.nopUDC op16) := ⟨rfl, rfl⟩
theorem nopUFC (op16 : Addr) : Statement (.nopUFC op16) := ⟨rfl, rfl⟩

end Sys2Proof.Laws.EncodingLength
end

