-- ==== Sys2Proof/Tests/Slice0.lean ====
section
/-! SUPPORT. The package's own tests: well-formedness, a written-out word of every opcode row, the
vectors of spec/95_test_vectors.md, and for every statement with hypotheses a state that meets them. -/

namespace Sys2Proof.Machine.Tests

set_option maxRecDepth 10000

/-! ### Well-formedness: an undocumented NOP outside `ILLEGAL_NOPS` is no instruction (R140, R141) -/

theorem test_wellFormed_nops_admitted :
    (Instr.nopU1A.wellFormed Params.default && (Instr.nopU1C 0x2000).wellFormed Params.default) = true := by
  decide

theorem test_wellFormed_nop_removed_is_refused :
    (Instr.nopU1C 0x2000).wellFormed { Params.default with illegalNops := [0x1A, 0x80] } = false := by
  decide

theorem test_wellFormed_documented_always :
    ((Instr.ldaImm 0).wellFormed { Params.default with illegalNops := [] } &&
      Instr.nop.wellFormed { Params.default with illegalNops := [] }) = true := by
  decide

theorem test_removed_nop_faults :
    entryOf { Params.default with illegalNops := [] } 0x1A = none ∧
      (entryOf Params.default 0x1A).isSome = true := by
  exact ⟨rfl, rfl⟩

/-! ### Decoding: one written-out word for each row of the opcode map (R139, R120, R124) -/

/-- The bytes decode to the instruction, with nothing left over. -/
def decodesTo (bytes : List Byte) (i : Instr) : Bool :=
  match decode bytes with
  | .ok (j, []) => decide (j = i)
  | _ => false

theorem test_decode_map_row_0 :
    (decodesTo [0x01, 0x81] (.oraIndX 0x81) &&
      decodesTo [0x04, 0x81] (.nopU04 0x81) &&
      decodesTo [0x05, 0x81] (.oraZp 0x81) &&
      decodesTo [0x06, 0x81] (.aslZp 0x81) &&
      decodesTo [0x08] .php &&
      decodesTo [0x09, 0x81] (.oraImm 0x81) &&
      decodesTo [0x0A] .aslA &&
      decodesTo [0x0C, 0x34, 0xC0] (.nopU0C 0xC034) &&
      decodesTo [0x0D, 0x34, 0xC0] (.oraAbs 0xC034) &&
      decodesTo [0x0E, 0x34, 0xC0] (.aslAbs 0xC034)) = true := by
  decide

theorem test_decode_map_row_1 :
    (decodesTo [0x10, 0x82] (.bpl 0x82) &&
      decodesTo [0x11, 0x82] (.oraIndY 0x82) &&
      decodesTo [0x14, 0x82] (.nopU14 0x82) &&
      decodesTo [0x15, 0x82] (.oraZpX 0x82) &&
      decodesTo [0x16, 0x82] (.aslZpX 0x82) &&
      decodesTo [0x18] .clc &&
      decodesTo [0x19, 0x34, 0xC1] (.oraAbsY 0xC134) &&
      decodesTo [0x1A] .nopU1A &&
      decodesTo [0x1C, 0x34, 0xC1] (.nopU1C 0xC134) &&
      decodesTo [0x1D, 0x34, 0xC1] (.oraAbsX 0xC134) &&
      decodesTo [0x1E, 0x34, 0xC1] (.aslAbsX 0xC134)) = true := by
  decide

theorem test_decode_map_row_2 :
    (decodesTo [0x20, 0x34, 0xC2] (.jsr 0xC234) &&
      decodesTo [0x21, 0x83] (.andIndX 0x83) &&
      decodesTo [0x24, 0x83] (.bitZp 0x83) &&
      decodesTo [0x25, 0x83] (.andZp 0x83) &&
      decodesTo [0x26, 0x83] (.rolZp 0x83) &&
      decodesTo [0x28] .plp &&
      decodesTo [0x29, 0x83] (.andImm 0x83) &&
      decodesTo [0x2A] .rolA &&
      decodesTo [0x2C, 0x34, 0xC2] (.bitAbs 0xC234) &&
      decodesTo [0x2D, 0x34, 0xC2] (.andAbs 0xC234) &&
      decodesTo [0x2E, 0x34, 0xC2] (.rolAbs 0xC234)) = true := by
  decide

theorem test_decode_map_row_3 :
    (decodesTo [0x30, 0x84] (.bmi 0x84) &&
      decodesTo [0x31, 0x84] (.andIndY 0x84) &&
      decodesTo [0x34, 0x84] (.nopU34 0x84) &&
      decodesTo [0x35, 0x84] (.andZpX 0x84) &&
      decodesTo [0x36, 0x84] (.rolZpX 0x84) &&
      decodesTo [0x38] .sec &&
      decodesTo [0x39, 0x34, 0xC3] (.andAbsY 0xC334) &&
      decodesTo [0x3A] .nopU3A &&
      decodesTo [0x3C, 0x34, 0xC3] (.nopU3C 0xC334) &&
      decodesTo [0x3D, 0x34, 0xC3] (.andAbsX 0xC334) &&
      decodesTo [0x3E, 0x34, 0xC3] (.rolAbsX 0xC334)) = true := by
  decide

theorem test_decode_map_row_4 :
    (decodesTo [0x40] .rti &&
      decodesTo [0x41, 0x85] (.eorIndX 0x85) &&
      decodesTo [0x44, 0x85] (.nopU44 0x85) &&
      decodesTo [0x45, 0x85] (.eorZp 0x85) &&
      decodesTo [0x46, 0x85] (.lsrZp 0x85) &&
      decodesTo [0x48] .pha &&
      decodesTo [0x49, 0x85] (.eorImm 0x85) &&
      decodesTo [0x4A] .lsrA &&
      decodesTo [0x4C, 0x34, 0xC4] (.jmpAbs 0xC434) &&
      decodesTo [0x4D, 0x34, 0xC4] (.eorAbs 0xC434) &&
      decodesTo [0x4E, 0x34, 0xC4] (.lsrAbs 0xC434)) = true := by
  decide

theorem test_decode_map_row_5 :
    (decodesTo [0x50, 0x86] (.bvc 0x86) &&
      decodesTo [0x51, 0x86] (.eorIndY 0x86) &&
      decodesTo [0x54, 0x86] (.nopU54 0x86) &&
      decodesTo [0x55, 0x86] (.eorZpX 0x86) &&
      decodesTo [0x56, 0x86] (.lsrZpX 0x86) &&
      decodesTo [0x58] .cli &&
      decodesTo [0x59, 0x34, 0xC5] (.eorAbsY 0xC534) &&
      decodesTo [0x5A] .nopU5A &&
      decodesTo [0x5C, 0x34, 0xC5] (.nopU5C 0xC534) &&
      decodesTo [0x5D, 0x34, 0xC5] (.eorAbsX 0xC534) &&
      decodesTo [0x5E, 0x34, 0xC5] (.lsrAbsX 0xC534)) = true := by
  decide

theorem test_decode_map_row_6 :
    (decodesTo [0x60] .rts &&
      decodesTo [0x61, 0x87] (.adcIndX 0x87) &&
      decodesTo [0x64, 0x87] (.nopU64 0x87) &&
      decodesTo [0x65, 0x87] (.adcZp 0x87) &&
      decodesTo [0x66, 0x87] (.rorZp 0x87) &&
      decodesTo [0x68] .pla &&
      decodesTo [0x69, 0x87] (.adcImm 0x87) &&
      decodesTo [0x6A] .rorA &&
      decodesTo [0x6C, 0x34, 0xC6] (.jmpInd 0xC634) &&
      decodesTo [0x6D, 0x34, 0xC6] (.adcAbs 0xC634) &&
      decodesTo [0x6E, 0x34, 0xC6] (.rorAbs 0xC634)) = true := by
  decide

theorem test_decode_map_row_7 :
    (decodesTo [0x70, 0x88] (.bvs 0x88) &&
      decodesTo [0x71, 0x88] (.adcIndY 0x88) &&
      decodesTo [0x74, 0x88] (.nopU74 0x88) &&
      decodesTo [0x75, 0x88] (.adcZpX 0x88) &&
      decodesTo [0x76, 0x88] (.rorZpX 0x88) &&
      decodesTo [0x78] .sei &&
      decodesTo [0x79, 0x34, 0xC7] (.adcAbsY 0xC734) &&
      decodesTo [0x7A] .nopU7A &&
      decodesTo [0x7C, 0x34, 0xC7] (.nopU7C 0xC734) &&
      decodesTo [0x7D, 0x34, 0xC7] (.adcAbsX 0xC734) &&
      decodesTo [0x7E, 0x34, 0xC7] (.rorAbsX 0xC734)) = true := by
  decide

theorem test_decode_map_row_8 :
    (decodesTo [0x80, 0x89] (.nopU80 0x89) &&
      decodesTo [0x81, 0x89] (.staIndX 0x89) &&
      decodesTo [0x82, 0x89] (.nopU82 0x89) &&
      decodesTo [0x84, 0x89] (.styZp 0x89) &&
      decodesTo [0x85, 0x89] (.staZp 0x89) &&
      decodesTo [0x86, 0x89] (.stxZp 0x89) &&
      decodesTo [0x88] .dey &&
      decodesTo [0x89, 0x89] (.nopU89 0x89) &&
      decodesTo [0x8A] .txa &&
      decodesTo [0x8C, 0x34, 0xC8] (.styAbs 0xC834) &&
      decodesTo [0x8D, 0x34, 0xC8] (.staAbs 0xC834) &&
      decodesTo [0x8E, 0x34, 0xC8] (.stxAbs 0xC834)) = true := by
  decide

theorem test_decode_map_row_9 :
    (decodesTo [0x90, 0x8A] (.bcc 0x8A) &&
      decodesTo [0x91, 0x8A] (.staIndY 0x8A) &&
      decodesTo [0x94, 0x8A] (.styZpX 0x8A) &&
      decodesTo [0x95, 0x8A] (.staZpX 0x8A) &&
      decodesTo [0x96, 0x8A] (.stxZpY 0x8A) &&
      decodesTo [0x98] .tya &&
      decodesTo [0x99, 0x34, 0xC9] (.staAbsY 0xC934) &&
      decodesTo [0x9A] .txs &&
      decodesTo [0x9D, 0x34, 0xC9] (.staAbsX 0xC934)) = true := by
  decide

theorem test_decode_map_row_A :
    (decodesTo [0xA0, 0x8B] (.ldyImm 0x8B) &&
      decodesTo [0xA1, 0x8B] (.ldaIndX 0x8B) &&
      decodesTo [0xA2, 0x8B] (.ldxImm 0x8B) &&
      decodesTo [0xA4, 0x8B] (.ldyZp 0x8B) &&
      decodesTo [0xA5, 0x8B] (.ldaZp 0x8B) &&
      decodesTo [0xA6, 0x8B] (.ldxZp 0x8B) &&
      decodesTo [0xA8] .tay &&
      decodesTo [0xA9, 0x8B] (.ldaImm 0x8B) &&
      decodesTo [0xAA] .tax &&
      decodesTo [0xAC, 0x34, 0xCA] (.ldyAbs 0xCA34) &&
      decodesTo [0xAD, 0x34, 0xCA] (.ldaAbs 0xCA34) &&
      decodesTo [0xAE, 0x34, 0xCA] (.ldxAbs 0xCA34)) = true := by
  decide

theorem test_decode_map_row_B :
    (decodesTo [0xB0, 0x8C] (.bcs 0x8C) &&
      decodesTo [0xB1, 0x8C] (.ldaIndY 0x8C) &&
      decodesTo [0xB4, 0x8C] (.ldyZpX 0x8C) &&
      decodesTo [0xB5, 0x8C] (.ldaZpX 0x8C) &&
      decodesTo [0xB6, 0x8C] (.ldxZpY 0x8C) &&
      decodesTo [0xB8] .clv &&
      decodesTo [0xB9, 0x34, 0xCB] (.ldaAbsY 0xCB34) &&
      decodesTo [0xBA] .tsx &&
      decodesTo [0xBC, 0x34, 0xCB] (.ldyAbsX 0xCB34) &&
      decodesTo [0xBD, 0x34, 0xCB] (.ldaAbsX 0xCB34) &&
      decodesTo [0xBE, 0x34, 0xCB] (.ldxAbsY 0xCB34)) = true := by
  decide

theorem test_decode_map_row_C :
    (decodesTo [0xC0, 0x8D] (.cpyImm 0x8D) &&
      decodesTo [0xC1, 0x8D] (.cmpIndX 0x8D) &&
      decodesTo [0xC2, 0x8D] (.nopUC2 0x8D) &&
      decodesTo [0xC4, 0x8D] (.cpyZp 0x8D) &&
      decodesTo [0xC5, 0x8D] (.cmpZp 0x8D) &&
      decodesTo [0xC6, 0x8D] (.decZp 0x8D) &&
      decodesTo [0xC8] .iny &&
      decodesTo [0xC9, 0x8D] (.cmpImm 0x8D) &&
      decodesTo [0xCA] .dex &&
      decodesTo [0xCC, 0x34, 0xCC] (.cpyAbs 0xCC34) &&
      decodesTo [0xCD, 0x34, 0xCC] (.cmpAbs 0xCC34) &&
      decodesTo [0xCE, 0x34, 0xCC] (.decAbs 0xCC34)) = true := by
  decide

theorem test_decode_map_row_D :
    (decodesTo [0xD0, 0x8E] (.bne 0x8E) &&
      decodesTo [0xD1, 0x8E] (.cmpIndY 0x8E) &&
      decodesTo [0xD4, 0x8E] (.nopUD4 0x8E) &&
      decodesTo [0xD5, 0x8E] (.cmpZpX 0x8E) &&
      decodesTo [0xD6, 0x8E] (.decZpX 0x8E) &&
      decodesTo [0xD8] .cld &&
      decodesTo [0xD9, 0x34, 0xCD] (.cmpAbsY 0xCD34) &&
      decodesTo [0xDA] .nopUDA &&
      decodesTo [0xDC, 0x34, 0xCD] (.nopUDC 0xCD34) &&
      decodesTo [0xDD, 0x34, 0xCD] (.cmpAbsX 0xCD34) &&
      decodesTo [0xDE, 0x34, 0xCD] (.decAbsX 0xCD34)) = true := by
  decide

theorem test_decode_map_row_E :
    (decodesTo [0xE0, 0x8F] (.cpxImm 0x8F) &&
      decodesTo [0xE1, 0x8F] (.sbcIndX 0x8F) &&
      decodesTo [0xE2, 0x8F] (.nopUE2 0x8F) &&
      decodesTo [0xE4, 0x8F] (.cpxZp 0x8F) &&
      decodesTo [0xE5, 0x8F] (.sbcZp 0x8F) &&
      decodesTo [0xE6, 0x8F] (.incZp 0x8F) &&
      decodesTo [0xE8] .inx &&
      decodesTo [0xE9, 0x8F] (.sbcImm 0x8F) &&
      decodesTo [0xEA] .nop &&
      decodesTo [0xEC, 0x34, 0xCE] (.cpxAbs 0xCE34) &&
      decodesTo [0xED, 0x34, 0xCE] (.sbcAbs 0xCE34) &&
      decodesTo [0xEE, 0x34, 0xCE] (.incAbs 0xCE34)) = true := by
  decide

theorem test_decode_map_row_F :
    (decodesTo [0xF0, 0x90] (.beq 0x90) &&
      decodesTo [0xF1, 0x90] (.sbcIndY 0x90) &&
      decodesTo [0xF4, 0x90] (.nopUF4 0x90) &&
      decodesTo [0xF5, 0x90] (.sbcZpX 0x90) &&
      decodesTo [0xF6, 0x90] (.incZpX 0x90) &&
      decodesTo [0xF8] .sed &&
      decodesTo [0xF9, 0x34, 0xCF] (.sbcAbsY 0xCF34) &&
      decodesTo [0xFA] .nopUFA &&
      decodesTo [0xFC, 0x34, 0xCF] (.nopUFC 0xCF34) &&
      decodesTo [0xFD, 0x34, 0xCF] (.sbcAbsX 0xCF34) &&
      decodesTo [0xFE, 0x34, 0xCF] (.incAbsX 0xCF34)) = true := by
  decide

theorem test_decode_rejects_by_name :
    decode [0x00, 0x01] = .error (.unimplementedOpcode 0x00) ∧ decode [0xAD, 0x01] = .error (.missingOperand 0xAD) ∧
      decode [] = .error .noOpcode := ⟨rfl, rfl, rfl⟩

theorem test_decodeTableWord_numbers_bytes_from_the_first :
    decodeTableWord 24 0xC0008D = some (.staAbs 0xC000) ∧ decodeTableWord 8 0xA9 = some (.ldaImm 0x00) ∧
      decodeTableWord 8 0x02 = none := ⟨rfl, rfl, rfl⟩

/-! ### Vectors of spec/95_test_vectors.md: one CPU step from its conventions, the code at $C000 -/

def writeAll : Nat → List Byte → Memory → Memory
  | _, [], m => m
  | k, b :: rest, m => writeAll (k + 1) rest (m.write k b)

/-- The start state of the vectors: a 16 KiB NROM image, PC = $C000, SP = $FD, all else zero. -/
def base : State := { State.reset with sp := 0xFD, pc := 0xC000 }

def flags : Flags := ⟨false, false, false, false, false, false⟩
def allFlags : Flags := ⟨true, true, true, true, true, true⟩

/-- RAM bytes placed from an index on. -/
def ramAt (k : Nat) (bytes : List Byte) (s : State) : State := { s with ram := writeAll k bytes s.ram }

/-- The outcome's state. -/
def final : Outcome → State
  | .next t => t
  | .fault f => f.final
  | .refused _ => State.reset

/-- One CPU step with the bytes at $C000. -/
def start (bytes : List Byte) (s : State) : Outcome :=
  cpuStep { s with cart := { s.cart with prg := writeAll 0 bytes s.cart.prg } }

def run (bytes : List Byte) (s : State) : State := final (start bytes s)

def cell (s : State) (k : Nat) : Byte := s.ram.read k

theorem test_M1_absolute_x_wraps_at_the_top :
    let t := run [0xBD, 0xFF, 0xFF] (ramAt 0 [0x3C] { base with x := 1 })
    (t.a, t.pc) = (0x3C, 0xC003) := by decide

theorem test_M2_pointer_at_FF :
    let s := ramAt 0xFF [0x34, 0x02] (ramAt 0 [0x03] (ramAt 0x234 [0xAA] (ramAt 0x334 [0xBB] { base with x := 1 })))
    (run [0xA1, 0xFE] s).a = 0xAA ∧
      (run [0xA1, 0xFE] { s with params := { s.params with zpPointerWrap := .wrap } }).a = 0xBB := by decide

theorem test_M3_indirect_y_crosses_the_page :
    let t := run [0xB1, 0x10] (ramAt 0x10 [0xFF, 0x02] (ramAt 0x300 [0x5A] { base with y := 1 }))
    (t.a, t.cyclesRemaining) = (0x5A, 5) := by decide

theorem test_M5_store_is_mirrored :
    let t := run [0x9D, 0xFF, 0x07] { base with a := 0x9C, x := 1 }
    (cell t 0, t.cyclesRemaining, peek t 0x1800) = (0x9C, 5, some 0x9C) := by decide

theorem test_M7_operand_from_FFFF :
    (final (cpuStep { base with
      pc := 0xFFFE, cart := { base.cart with prg := writeAll 0x3FFE [0x69, 0x01] [] } })).pc = 0x0000 := by
  decide

theorem test_V1_lda_zero :
    let t := run [0xA9, 0x00] { base with a := 0x55 }
    (t.a, t.p.z, t.p.n, t.pc, t.cyclesRemaining, t.instrCount) = (0, true, false, 0xC002, 2, 1) := by decide

theorem test_V3_ldx_zero_page_y_wraps :
    let t := run [0xB6, 0xFF] (ramAt 1 [0x77] { base with y := 2 })
    (t.x, t.cyclesRemaining) = (0x77, 4) := by decide

theorem test_V4_ldy :
    let t := run [0xAC, 0x10, 0x02] { base with y := 9 }
    (t.y, t.p.z) = (0, true) := by decide

theorem test_V5_sta_sets_no_flag :
    let t := run [0x85, 0x10] (ramAt 0x10 [0x99] base)
    (cell t 0x10, t.p, t.cyclesRemaining) = (0, flags, 3) := by decide

theorem test_V6_stx :
    let t := run [0x86, 0xFF] { base with x := 0xFF }
    (cell t 0xFF, t.p.n) = (0xFF, false) := by decide

theorem test_V7_sty_zero_page_x_wraps :
    cell (run [0x94, 0x20] { base with x := 0xF0, y := 0x12 }) 0x10 = 0x12 := by decide

theorem test_V8_V9_tax_tay :
    ((run [0xAA] { base with x := 5 }).x, (run [0xAA] { base with x := 5 }).p.z,
      (run [0xA8] { base with a := 0x80 }).y, (run [0xA8] { base with a := 0x80 }).p.n) =
        (0, true, 0x80, true) := by decide

theorem test_V10_V11_txa_tya :
    ((run [0x8A] { base with x := 1, a := 0xFF }).a, (run [0x98] { base with y := 0xFF }).a,
      (run [0x98] { base with y := 0xFF }).p.n) = (1, 0xFF, true) := by decide

theorem test_V12_V13_tsx_txs :
    ((run [0xBA] { base with sp := 0x80 }).x, (run [0xBA] { base with sp := 0x80 }).p.n,
      (run [0x9A] base).sp, (run [0x9A] base).p.z) = (0x80, true, 0, false) := by decide

theorem test_V15_adc_carry :
    let t := run [0x69, 0x01] { base with a := 0xFF }
    (t.a, t.p) = (0, { flags with c := true, z := true }) := by decide

theorem test_V17_adc_overflow :
    let t := run [0x69, 0x80] { base with a := 0x80 }
    (t.a, t.p) = (0, { flags with c := true, v := true, z := true }) := by decide

theorem test_V19_adc_is_binary :
    let t := run [0x69, 0x01] { base with a := 0x09, p := { flags with d := true } }
    (t.a, t.p.d) = (0x0A, true) := by decide

theorem test_V20_sbc_borrow :
    let t := run [0xE9, 0x01] { base with p := { flags with c := true } }
    (t.a, t.p) = (0xFF, { flags with n := true }) := by decide

theorem test_V21_sbc_overflow :
    let t := run [0xE9, 0x01] { base with a := 0x80, p := { flags with c := true } }
    (t.a, t.p) = (0x7F, { flags with c := true, v := true }) := by decide

theorem test_V23_V24_V25_logic :
    ((run [0x29, 0x0F] { base with a := 0xF0 }).a, (run [0x09, 0x80] { base with a := 0x01 }).a,
      (run [0x49, 0xFF] { base with a := 0xFF }).a) = (0, 0x81, 0) := by decide

theorem test_V26_V27_V28_compares :
    ((run [0xC9, 0x01] { base with a := 0x80 }).p, (run [0xE0, 0x00] { base with x := 0xFF }).p,
      (run [0xC0, 0x20] { base with y := 0x10, p := { flags with c := true } }).p) =
        ({ flags with c := true }, { flags with c := true, n := true }, { flags with n := true }) := by
  decide

theorem test_V29_bit :
    let t := run [0x24, 0x10] (ramAt 0x10 [0xC0] { base with a := 0x3F })
    (t.a, t.p, t.cyclesRemaining) = (0x3F, { flags with z := true, n := true, v := true }, 3) := by decide

theorem test_V31_bit_status_clears_vblank :
    let t := run [0x2C, 0x02, 0x20] { base with ppu := { base.ppu with status := 0xC0 } }
    (t.p, t.ppu.status) = ({ flags with z := true, n := true, v := true }, 0x40) := by decide

theorem test_V32_V33_inc_dec :
    let t := run [0xE6, 0x10] (ramAt 0x10 [0xFF] base)
    let u := run [0xC6, 0x10] base
    (cell t 0x10, t.p, t.cyclesRemaining, cell u 0x10, u.p) =
      (0, { flags with z := true }, 5, 0xFF, { flags with n := true }) := by decide

theorem test_V34_to_V37_register_counts :
    ((run [0xE8] { base with x := 0xFF }).x, (run [0xC8] { base with y := 0x7F }).y, (run [0xCA] base).x,
      (run [0x88] { base with y := 1 }).y) = (0, 0x80, 0xFF, 0) := by decide

theorem test_V40_V42_asl_lsr :
    ((run [0x0A] { base with a := 0x80 }).a, (run [0x0A] { base with a := 0x80 }).p,
      (run [0x4A] { base with a := 0x01, p := { flags with n := true } }).a,
      (run [0x4A] { base with a := 0x01, p := { flags with n := true } }).p) =
        (0, { flags with c := true, z := true }, 0, { flags with c := true, z := true }) := by decide

theorem test_V44_V45_rol_ror :
    ((run [0x2A] { base with p := { flags with c := true } }).a,
      (run [0x6A] { base with a := 0x01, p := { flags with c := true } }).a,
      (run [0x6A] { base with a := 0x01, p := { flags with c := true } }).p) =
        (0x01, 0x80, { flags with c := true, n := true }) := by decide

theorem test_V46_V47_memory_shifts :
    (cell (run [0x66, 0x10] (ramAt 0x10 [0x02] base)) 0x10, cell (run [0x06, 0x10] (ramAt 0x10 [0xC0] base)) 0x10) =
      (0x01, 0x80) := by decide

theorem test_V50_V51_bne :
    ((run [0xD0, 0xFB] base).pc, (run [0xD0, 0xFB] { base with p := { flags with z := true } }).pc) =
      (0xBFFD, 0xC002) := by decide

theorem test_V52_to_V55_branches :
    ((run [0xF0, 0x10] { base with p := { flags with z := true } }).pc, (run [0x30, 0x10] base).pc,
      (run [0x10, 0x7F] base).pc, (run [0x70, 0x02] { base with p := { flags with v := true } }).pc) =
        (0xC012, 0xC002, 0xC081, 0xC004) := by decide

theorem test_V56_to_V58_branches :
    ((run [0x50, 0x02] { base with p := { flags with v := true } }).pc, (run [0x90, 0x80] base).pc,
      (run [0xB0, 0x00] { base with p := { flags with c := true } }).pc) = (0xC002, 0xBF82, 0xC002) := by
  decide

theorem test_V59_S9_jumps :
    let s := ramAt 0x2FF [0x34] (ramAt 0x200 [0x12] (ramAt 0x300 [0x56] base))
    ((run [0x4C, 0x34, 0x12] base).pc, (run [0x6C, 0xFF, 0x02] s).pc, (run [0x6C, 0xFF, 0x02] s).cyclesRemaining) =
      (0x1234, 0x1234, 5) := by decide

theorem test_V63_jsr :
    let t := run [0x20, 0x00, 0xD0] { base with sp := 0xFF }
    (cell t 0x1FF, cell t 0x1FE, t.sp, t.pc, t.cyclesRemaining) = (0xC0, 0x02, 0xFD, 0xD000, 6) := by decide

theorem test_V64_rts_wraps :
    let t := run [0x60] (ramAt 0x100 [0xFF, 0xBF] { base with sp := 0xFF })
    (t.pc, t.sp) = (0xC000, 0x01) := by decide

theorem test_V62_rti :
    let t := run [0x40] (ramAt 0x1FB [0xA1, 0x34, 0x12] { base with sp := 0xFA })
    (t.p, t.pc, t.sp) = ({ flags with n := true, c := true }, 0x1234, 0xFD) := by decide

theorem test_V70_pha_wraps :
    let t := run [0x48] { base with a := 0x42, sp := 0x00 }
    (cell t 0x100, t.sp) = (0x42, 0xFF) := by decide

theorem test_V71_V72_php :
    (cell (run [0x08] { base with sp := 0xFF, p := { flags with c := true, z := true } }) 0x1FF,
      cell (run [0x08] { base with sp := 0xFF, p := allFlags }) 0x1FF) = (0x33, 0xFF) := by decide

theorem test_V73_pla :
    let t := run [0x68] (ramAt 0x1FD [0x80] { base with sp := 0xFC })
    (t.a, t.p.n, t.sp) = (0x80, true, 0xFD) := by decide

theorem test_V75_V76_plp :
    (((run [0x28] (ramAt 0x1FF [0xC3] { base with sp := 0xFE })).p),
      (run [0x28] (ramAt 0x1FF [0x30] { base with sp := 0xFE, p := allFlags })).p) =
        ({ flags with n := true, v := true, z := true, c := true }, flags) := by decide

theorem test_V77_to_V83_flags :
    ((run [0x18] { base with p := allFlags }).p, (run [0x38] base).p, (run [0x58] { base with p := allFlags }).p,
      (run [0x78] base).p, (run [0xB8] { base with p := allFlags }).p, (run [0xD8] { base with p := allFlags }).p,
      (run [0xF8] base).p) =
        ({ allFlags with c := false }, { flags with c := true }, { allFlags with i := false },
          { flags with i := true }, { allFlags with v := false }, { allFlags with d := false },
          { flags with d := true }) := by decide

theorem test_V84_to_V86_nops :
    let t := run [0x1C, 0x00, 0x20] { base with ppu := { base.ppu with status := 0x80 } }
    ((run [0xEA] base).pc, (run [0x80, 0xFF] base).pc, t.pc, t.cyclesRemaining, t.ppu.status) =
      (0xC001, 0xC002, 0xC003, 4, 0x80) := by decide

/-! ### Devices, faults, the NMI -/

theorem test_D1_word_at_1FFF :
    busRead16 0x1FFF (ramAt 0x7FF [0x34] (ramAt 0 [0x12] base)) =
      .done 0x1234 (ramAt 0x7FF [0x34] (ramAt 0 [0x12] base)) := by decide

theorem test_D4_shared_toggle :
    let s : State := { base with ppu := { base.ppu with addrToggle := true, vramAddr := 0x2100 } }
    let t := run [0xAD, 0x02, 0x20] { s with params := { s.params with statusReadResetsToggle := true } }
    ((run [0x8D, 0x06, 0x20] { s with a := 0x08 }).ppu.vramAddr, (run [0xAD, 0x02, 0x20] s).ppu.addrToggle,
      t.ppu.addrToggle) = (0x2108, true, false) := by decide

theorem test_D5_data_read_is_buffered :
    let s : State := { base with ppu := { base.ppu with vramAddr := 0x2108, nt := [(0x108, 0xAB)] } }
    let t := run [0xAD, 0x07, 0x20] s
    (t.a, t.ppu.readBuffer, t.ppu.vramAddr) = (0, 0xAB, 0x2109) := by decide

theorem test_D6_to_D10_vram_map :
    let w (m : Mirroring) (a : Addr) := vramTranslate m a
    (w .horizontal 0x2508, w .vertical 0x2908, w .horizontal 0x3F10, w .vertical 0x3F24) =
      (.nt 0x108, .nt 0x108, .pal 0, .pal 4) := by decide

theorem test_D11_oam_data :
    let t := run [0x8D, 0x04, 0x20] { base with a := 0x22, ppu := { base.ppu with oamAddr := 0xFF } }
    (t.ppu.oam, t.ppu.oamAddr) = ([(0xFF, 0x22)], 0) := by decide

theorem test_D13_D14_reload_flags :
    let t := run [0x8D, 0x0B, 0x40] { base with a := 7 }
    let u := run [0x8D, 0x0F, 0x40] { base with a := 7 }
    (t.apu.bank, t.apu.reloadLinear, t.apu.reloadNoise, u.apu.reloadNoise) =
      ([(0x400B, 7)], true, false, true) := by decide

theorem test_D16_oam_dma :
    let t := run [0x8D, 0x14, 0x40] (ramAt 0x300 [0x11, 0x22] { base with a := 3, ppu := { base.ppu with oamAddr := 0x40 } })
    (t.ppu.oam, t.ppu.oamAddr, t.extraCycles, t.cyclesRemaining) = ([(0, 0x11), (1, 0x22)], 0x40, 0, 517) := by
  decide

theorem test_D19_D20_mmc1 :
    let r (x : BitVec 5) : Mmc1 := { shift := x, control := 0, chr0 := 0, chr1 := 0, prg := 0 }
    (((r 0x10).write 0xA000 0).shift, ((r 0x08).write 0xA000 1).shift, ((r 0x14).write 0xA000 1).shift,
      ((r 0x1A).write 0xA000 0).shift, (r 0x0D).write 0xA000 1, (r 0x1C).write 0x8000 0x80) =
        (0x08, 0x14, 0x1A, 0x0D, { r 0x10 with chr0 := 0x16 }, { r 0x10 with control := 0x0C }) := by decide

theorem test_D22_reset_vector :
    let cart : Cartridge := { Cartridge.blank with prgBanks := 2, prg := [(0x7FFC, 0x34), (0x7FFD, 0x80)] }
    (State.powerOn cart Params.default ResetValues.zero).pc = 0x8034 := by decide

theorem test_R2_mmc1_reset :
    (State.powerOn { Cartridge.blank with mapper := 1 } Params.default ResetValues.zero).mapper =
      .mmc1 { shift := 0x10, control := 0, chr0 := 0, chr1 := 0, prg := 0 } := by decide

theorem test_reset_is_the_reset_of_the_blank_cartridge :
    State.reset = State.powerOn Cartridge.blank Params.default ResetValues.zero := by decide

theorem test_loadWarning :
    (loadWarning { Cartridge.blank with mapper := 1 }, loadWarning { Cartridge.blank with mapper := 4 }) =
      (none, some 4) := by decide

theorem test_F2_unimplemented_opcode :
    let t := run [0x02] { base with instrCount := 7 }
    (t.halted, t.pc, t.sp) = (some (.unimplementedOpcode 0x02 7), 0xC001, 0xFD) := by decide

theorem test_F4_write_only_register :
    let t := run [0xAD, 0x00, 0x20] base
    (t.halted, t.pc, t.instrCount, t.cyclesRemaining) = (some (.writeOnlyRegisterRead 0x2000), 0xC001, 0, 0) := by
  decide

theorem test_F5_unmapped_io : (run [0xAD, 0x17, 0x40] base).halted = some (.unmappedIoRead 0x4017) := by decide

theorem test_F7_dma_fault :
    let t := run [0x8D, 0x14, 0x40] { base with a := 0x20 }
    (t.halted, t.ppu.oam, t.extraCycles) = (some (.writeOnlyRegisterRead 0x2000), [], 0) := by decide

theorem test_E1_nmi_entry :
    let t := nmiEntry { base with pc := 0xC005, cart := { base.cart with prg := [(0x3FFA, 0x20), (0x3FFB, 0xC0)] } }
    (cell t 0x1FD, cell t 0x1FC, cell t 0x1FB, t.sp, t.p.i, t.pc) = (0xC0, 0x05, 0x20, 0xFA, true, 0xC020) := by
  decide

theorem test_E2_E5_edge :
    let s : State := { base with ppu := { base.ppu with ctrl := 0x80, status := 0x80 }, p := { flags with i := true } }
    ((nmiSample s).1, (nmiSample { s with nmiPrev := true }).1, (nmiSample s).2.nmiPrev) = (true, false, true) := by
  decide

theorem test_T3_reload_bias :
    (run [0xA9, 0x05] { base with params := { base.params with reloadBias := .minusOne } }).cyclesRemaining = 1 := by
  decide

/-- The bytes at $0000 after a table word is placed in the reset state. -/
theorem test_withFetchWord :
    let s := State.reset.withFetchWord 24 0xC0008D
    (peek s s.pc, peek s (s.pc + 1), peek s (s.pc + 2), s.pc, s.tick) =
      (some 0x8D, some 0x00, some 0xC0, 0, 0) := by decide

/-! ### Witnesses: for each statement with hypotheses, a state and operands that meet them together,
at the boundaries of each clause -/

/-- The outcome is a next state. -/
def isNext : Outcome → Bool
  | .next _ => true
  | _ => false

/-- The program bytes at the start of the PRG image. -/
def withProgram (bytes : List Byte) (s : State) : State :=
  { s with cart := { s.cart with prg := writeAll 0 bytes s.cart.prg } }

theorem test_readable_boundaries :
    ([0x0000, 0x1FFF, 0x2002, 0x2004, 0x2007, 0x3FFA, 0x3FFF, 0x4000, 0x400F, 0x4015, 0x4016, 0x4020, 0x7FFF,
        0x8000, 0xFFFF].map readable,
      [0x2000, 0x2001, 0x2003, 0x2005, 0x2006, 0x3FFE, 0x4010, 0x4014, 0x4017, 0x401F].map readable) =
      (List.replicate 15 true, List.replicate 10 false) := by decide

theorem test_dmaReadable_boundaries :
    ([0x00, 0x1F, 0x41, 0xFF].map dmaReadable, [0x20, 0x3F, 0x40].map dmaReadable) =
      (List.replicate 4 true, List.replicate 3 false) := by decide

theorem test_witness_DecodedBytesAreTheEncoding :
    decode [0xA9, 0x05, 0x07] = .ok (.ldaImm 0x05, [0x07]) ∧ decode [0xEA] = .ok (.nop, []) := ⟨rfl, rfl⟩

theorem test_witness_UnlistedOpcodesAreRejected :
    decode [0x00] = .error (.unimplementedOpcode 0x00) ∧ decode [0xFF] = .error (.unimplementedOpcode 0xFF) :=
  ⟨rfl, rfl⟩

theorem test_witness_UnlistedOpcodeRaisesItsFault :
    let s := withProgram [0xFF] base
    s.cyclesRemaining = 0 ∧ busRead (takeNmi s).pc (takeNmi s) = .done 0xFF s ∧
      ∀ rest, decode (0xFF :: rest) = .error (.unimplementedOpcode 0xFF) :=
  ⟨rfl, by decide, fun _ => rfl⟩

theorem test_witness_UnlistedOpcodeRaisesItsFault_removed_nop :
    let s := withProgram [0x1A] { base with params := { base.params with illegalNops := [] } }
    s.cyclesRemaining = 0 ∧ busRead (takeNmi s).pc (takeNmi s) = .done 0x1A s ∧ s.params.admits 0x1A = false :=
  ⟨rfl, by decide, by decide⟩

theorem test_witness_OperandsAreFetchedThroughTheBus :
    let s := withProgram [0xAD, 0x34, 0x12] base
    let u := withProgram [0xA9, 0x05] base
    s.cyclesRemaining = 0 ∧ busRead (takeNmi s).pc (takeNmi s) = .done (Instr.ldaAbs 0).info.opcode s ∧
      (Instr.ldaAbs 0).wellFormed s.params = true ∧ (encode (.ldaAbs 0)).length = 3 ∧
      busRead (takeNmi u).pc (takeNmi u) = .done (Instr.ldaImm 0).info.opcode u ∧
      (encode (.ldaImm 0)).length = 2 ∧ (encode .nop).length = 1 ∧ (Instr.nopU1C 0).info.mnemonic = .nopStar ∧
      isNext (start [0x1C, 0x00, 0x20] base) = true := by
  refine ⟨rfl, ?_, ?_, rfl, ?_, rfl, rfl, rfl, ?_⟩ <;> decide

theorem test_witness_StepRunsTheDecodedInstruction :
    let s := withProgram [0xA9, 0x05] base
    let i : Instr := .ldaImm 0x05
    s.startsInstruction ∧ (nmiLine (videoStep s) && !s.nmiPrev) = false ∧
      i.wellFormed s.params = true ∧ s.holdsAtPc i := by
  refine ⟨⟨rfl, rfl, rfl⟩, ?_, by decide, ?_⟩
  · have h : nmiLine (videoStep (withProgram [0xA9, 0x05] base)) = false := Bool.false_and _
    simp only [h, Bool.false_and]
  · intro k b h
    match k, h with
    | 0, h => cases h; decide
    | 1, h => cases h; decide

theorem test_witness_LoadsWriteTheirRegister :
    (∃ rows, ((Instr.ldaImm 0x80).info.mnemonic, Reg.a, rows) ∈ loadTable) ∧
      (∃ rows, ((Instr.ldxZpY 0xFF).info.mnemonic, Reg.x, rows) ∈ loadTable) ∧
      (∃ rows, ((Instr.ldyAbs 0x2000).info.mnemonic, Reg.y, rows) ∈ loadTable) ∧
      ((Operand.immediate 0x80).readable base, (Operand.absolute 0x2002).readable base,
        (Operand.absolute 0x2000).readable base) = (true, true, false) :=
  ⟨⟨_, .head _⟩, ⟨_, .tail _ (.head _)⟩, ⟨_, .tail _ (.tail _ (.head _))⟩, by decide⟩

theorem test_witness_StoresWriteTheirRegister :
    (∃ rows, ((Instr.staAbs 0x4014).info.mnemonic, Reg.a, rows) ∈ storeTable) ∧
      (∃ rows, ((Instr.stxZp 0xFF).info.mnemonic, Reg.x, rows) ∈ storeTable) ∧
      (∃ rows, ((Instr.styAbs 0x4013).info.mnemonic, Reg.y, rows) ∈ storeTable) ∧
      place (.absolute 0x4014) base = .memory 0x4014 ∧
      (dmaReadable (base.reg .a), dmaReadable ({ base with a := 0x20 }.reg .a)) = (true, false) :=
  ⟨⟨_, .head _⟩, ⟨_, .tail _ (.head _)⟩, ⟨_, .tail _ (.tail _ (.head _))⟩, rfl, by decide⟩

theorem test_witness_StoresChangeOnlyTheirByte :
    (Instr.staAbsX 0x07FF).info.mnemonic ∈ ([.sta, .stx, .sty] : List Mnemonic) ∧
      (Instr.staAbsX 0x07FF).operand = some (.absoluteX 0x07FF) ∧
      place (.absoluteX 0x07FF) { base with x := 1 } = .memory 0x0800 ∧
      isNext (exec (.staAbsX 0x07FF) { base with x := 1 }) = true ∧
      isNext (exec (.stxAbs 0x8000) base) = true ∧ isNext (exec (.styAbs 0x2007) base) = true ∧
      isNext (exec (.staAbs 0x4014) base) = true := by decide

theorem test_witness_TransfersCopyARegister :
    (Instr.tax, 0xAA, base.a, Reg.x) ∈ transferTable base ∧ (Instr.tsx, 0xBA, 0xFD, Reg.x) ∈ transferTable base := by
  decide

theorem test_witness_AddWithCarrySumsIntoA :
    ((Instr.adcImm 0xFF).info.mnemonic, (Instr.adcAbs 0x4010).info.mnemonic) = (.adc, .adc) ∧
      (Instr.adcAbs 0x4010).operand = some (.absolute 0x4010) ∧
      ((Operand.immediate 0xFF).readable base, (Operand.absolute 0x4010).readable base) = (true, false) := by decide

theorem test_witness_SubtractWithBorrowFromA :
    ((Instr.sbcImm 0x00).info.mnemonic, (Instr.sbcAbs 0x401F).info.mnemonic) = (.sbc, .sbc) ∧
      (Instr.sbcAbs 0x401F).operand = some (.absolute 0x401F) ∧
      ((Operand.immediate 0x00).readable base, (Operand.absolute 0x401F).readable base) = (true, false) := by decide

theorem test_witness_LogicalOperationsCombineIntoA :
    (∃ f rows, ((Instr.andZp 0x10).info.mnemonic, f, rows) ∈ logicTable) ∧
      (∃ f rows, ((Instr.oraAbs 0x4020).info.mnemonic, f, rows) ∈ logicTable) ∧
      (∃ f rows, ((Instr.eorAbs 0x4014).info.mnemonic, f, rows) ∈ logicTable) ∧
      ((Operand.zeroPage 0x10).readable base, (Operand.absolute 0x4020).readable base,
        (Operand.absolute 0x4014).readable base) = (true, true, false) :=
  ⟨⟨_, _, .head _⟩, ⟨_, _, .tail _ (.head _)⟩, ⟨_, _, .tail _ (.tail _ (.head _))⟩, by decide⟩

theorem test_witness_ComparesSetOnlyFlags :
    (∃ rows, ((Instr.cmpIndY 0x20).info.mnemonic, Reg.a, rows) ∈ compareTable) ∧
      (∃ rows, ((Instr.cpxImm 0x00).info.mnemonic, Reg.x, rows) ∈ compareTable) ∧
      (∃ rows, ((Instr.cpyAbs 0x3FFE).info.mnemonic, Reg.y, rows) ∈ compareTable) ∧
      ((Operand.indirectY 0x20).readable base, (Operand.absolute 0x3FFE).readable base) = (true, false) :=
  ⟨⟨_, .head _⟩, ⟨_, .tail _ (.head _)⟩, ⟨_, .tail _ (.tail _ (.head _))⟩, by decide⟩

theorem test_witness_BitTestSetsOnlyFlags :
    ((Instr.bitAbs 0x2002).info.mnemonic, (Instr.bitAbs 0x2001).info.mnemonic) = (.bit, .bit) ∧
      (Instr.bitAbs 0x2002).operand = some (.absolute 0x2002) ∧
      ((Operand.absolute 0x2002).readable base, (Operand.absolute 0x2001).readable base) = (true, false) := by decide

theorem test_witness_IncrementAndDecrementMemory :
    (∃ rows, ((Instr.incAbs 0x2007).info.mnemonic, 0x01, rows) ∈ countTable) ∧
      (∃ rows, ((Instr.decAbs 0x2000).info.mnemonic, 0xFF, rows) ∈ countTable) ∧
      (readable 0x2007, readable 0x2000) = (true, false) :=
  ⟨⟨_, .head _⟩, ⟨_, .tail _ (.head _)⟩, by decide⟩

theorem test_witness_IncrementAndDecrementRegisters :
    (Instr.inx, 0xE8, Reg.x, 0x01) ∈ registerCountTable ∧ (Instr.dey, 0x88, Reg.y, 0xFF) ∈ registerCountTable := by
  decide

theorem test_witness_ShiftsAndRotates_accumulator :
    let s : State := { base with a := 0x81, p := { flags with c := true } }
    (Instr.aslA, 0x0A, 0x02, true) ∈ accumulatorShiftTable s.a.toNat s.p.c ∧
      (Instr.rorA, 0x6A, 0xC0, true) ∈ accumulatorShiftTable s.a.toNat s.p.c := by decide

theorem test_witness_ShiftsAndRotates_memory :
    (Instr.aslAbs 0x4016).operand = some (.absolute 0x4016) ∧ Operand.absolute 0x4016 ≠ .accumulator ∧
      (∃ op rows, ((Instr.aslAbs 0x4016).info.mnemonic, op, rows) ∈ memoryShiftTable) ∧
      (∃ op rows, ((Instr.rolAbs 0x4017).info.mnemonic, op, rows) ∈ memoryShiftTable) ∧
      (readable 0x4016, readable 0x4017) = (true, false) :=
  ⟨rfl, by decide, ⟨_, _, .head _⟩, ⟨_, _, .tail _ (.tail _ (.head _))⟩, by decide⟩

theorem test_witness_ReadModifyWriteChangesOnlyItsByte :
    (Instr.incZp 0xFF).info.mnemonic ∈ ([.inc, .dec, .asl, .lsr, .rol, .ror] : List Mnemonic) ∧
      (Instr.incZp 0xFF).operand = some (.zeroPage 0xFF) ∧ place (.zeroPage 0xFF) base = .memory 0x00FF ∧
      isNext (exec (.incZp 0xFF) base) = true ∧ isNext (exec (.incAbs 0x2007) base) = true ∧
      isNext (exec (.aslAbs 0x4016) base) = true ∧ isNext (exec (.rorAbs 0x8000) base) = true := by decide

theorem test_witness_BranchesMoveOnlyThePc :
    (Instr.bne 0x80, 0xD0, true) ∈ branchTable 0x80 base.p ∧ (Instr.beq 0x7F, 0xF0, false) ∈ branchTable 0x7F base.p := by
  decide

theorem test_witness_JumpsSetThePc :
    (readable 0x02FF, readable 0x0200, readable 0x2002, readable 0x2003, readable 0x2000) =
      (true, true, true, false, false) := by decide

theorem test_witness_PushesWriteOneStackByte :
    (Instr.pha, 0x48, 0x00) ∈ pushTable base ∧ (Instr.php, 0x08, 0xFF) ∈ pushTable { base with p := allFlags } := by
  decide

theorem test_witness_FlagInstructionsWriteOneFlag :
    (Instr.clc, 0x18, { allFlags with c := false }) ∈ flagTable allFlags ∧
      (Instr.sed, 0xF8, { flags with d := true }) ∈ flagTable flags := by decide

theorem test_witness_NoOperationsMoveOnlyThePc :
    (∃ rows, (Instr.nop.info.mnemonic, rows) ∈ nopTable) ∧
      (∃ rows, ((Instr.nopU1C 0x2000).info.mnemonic, rows) ∈ nopTable) :=
  ⟨⟨_, .head _⟩, ⟨_, .tail _ (.head _)⟩⟩

theorem test_witness_RegistersAndFlagsHaveOnlyTheirWriters :
    isNext (exec (.staZp 0x00) base) = true ∧ isNext (exec (.ldaImm 0x80) base) = true ∧
      (Instr.staZp 0x00).info.mode ≠ .accumulator := by decide

theorem test_witness_FormsThatStoreNothingKeepMemory :
    isNext (exec (.ldaAbs 0x2007) base) = true ∧ isNext (exec .rolA base) = true ∧
      (Instr.ldaAbs 0x2007).info.mnemonic ∉
        ([.sta, .stx, .sty, .inc, .dec, .jsr, .pha, .php] : List Mnemonic) ∧
      Instr.rolA.info.mode = .accumulator := by decide

theorem test_witness_ConfigurationAndClockAreNotTheInstructionsToChange :
    isNext (exec (.staAbs 0x4014) base) = true ∧
      step { base with tick := 1 } = .next { videoStep { base with tick := 1 } with tick := 2 } := ⟨by decide, rfl⟩

theorem test_witness_RamIsMirroredAndWordsAreLittleEndian :
    (0x0000 : Addr).toNat < 0x2000 ∧ (0x1FFF : Addr).toNat < 0x2000 ∧ (0x1FFF : Addr).toNat ≤ 0x1FFF ∧
      0x1FFF < (0x2000 : Addr).toNat ∧ 0x1FFF < (0xFFFF : Addr).toNat := by decide

theorem test_witness_ReadsFaultExactlyWhereTheSpecSays :
    let ppuFault (n : Nat) := 0x2000 ≤ n ∧ n ≤ 0x3FFF ∧ n % 8 ∈ ([0, 1, 3, 5, 6] : List Nat)
    let ioFault (n : Nat) := 0x4010 ≤ n ∧ n ≤ 0x4014 ∨ 0x4017 ≤ n ∧ n ≤ 0x401F
    (ppuFault 0x2000 ∧ ppuFault 0x3FFE) ∧ (ioFault 0x4010 ∧ ioFault 0x4014 ∧ ioFault 0x4017 ∧ ioFault 0x401F) ∧
      (¬ppuFault 0x3FFF ∧ ¬ioFault 0x3FFF) ∧ ¬ppuFault 0x400F ∧ ¬ioFault 0x400F ∧ ¬ioFault 0x4016 ∧
      ¬ioFault 0x4020 := by decide

theorem test_witness_WritesFaultOnlyThroughTheDma :
    (0x4013 : Addr) ≠ 0x4014 ∧ dmaReadable 0x41 = true ∧ dmaReadable 0x40 = false := by decide

theorem test_witness_ReadsChangeOnlyDevices :
    busRead 0x1FFF base = .done 0 base ∧ busRead 0x3FFC base = .done 0 base ∧ busRead 0xC000 base = .done 0 base := by
  decide

theorem test_witness_PpuRegisterWrites :
    ((0x2000 : Addr).toNat % 8, { base.ppu with ctrl := 0x80 }) = (0, { base.ppu with ctrl := 0x80 }) ∧
      ((0x3FFE : Addr).toNat % 8) = 6 ∧ 0x2000 ≤ (0x2000 : Addr).toNat ∧ (0x3FFE : Addr).toNat ≤ 0x3FFF := by decide

theorem test_witness_PpuReadsAndDataWrites :
    ((0x2002 : Addr).toNat % 8, (0x3FFC : Addr).toNat % 8, (0x3FFF : Addr).toNat % 8) = (2, 4, 7) ∧
      vramTranslate base.cart.mirroring 0x3F10 = vramTranslate base.cart.mirroring 0x3F00 ∧
      vramTranslate base.cart.mirroring 0x2400 ≠ vramTranslate base.cart.mirroring 0x2800 := by decide

theorem test_witness_VramMapByRegion :
    ([0x4000, 0x5FFF, 0x6000, 0xFEFF, 0x3F00, 0x7FFF].map fun w : Addr => w.toNat % 0x4000) =
      [0x0000, 0x1FFF, 0x2000, 0x3EFF, 0x3F00, 0x3FFF] := by decide

/-- R80, R79: CHR-ROM hides CHR-RAM, and $3F10 is the byte of $3F00. -/
theorem test_vramRead_by_region :
    let rom : Cartridge := { Cartridge.blank with chr := [(0x1FFF, 0x5A)], chrBanks := 1 }
    let u : Ppu := { base.ppu with chrRam := [(0x1FFF, 0xA5)], nt := [(0x400, 0x11)], pal := [(0, 0x22)] }
    (vramRead rom 0x1FFF u, vramRead Cartridge.blank 0x1FFF u, vramRead rom 0x2800 u, vramRead rom 0x3F10 u) =
      (0x5A, 0xA5, 0x11, 0x22) := by decide

theorem test_witness_OamDmaCopiesThePage :
    (∀ k, k < 256 → (peek base (BitVec.ofNat 16 (0x07 * 256 + k))).isSome = true) ∧
      (∀ k, k < 256 → (peek base (BitVec.ofNat 16 (0xC0 * 256 + k))).isSome = true) ∧
      (∀ k, k < 256 → peek base (BitVec.ofNat 16 (0x41 * 256 + k)) = none) ∧ 0x40 < (0x41 : Byte).toNat ∧
      0x20 ≤ (0x3F : Byte).toNat ∧ (0x3F : Byte).toNat < 0x40 := by
  refine ⟨?_, ?_, ?_, ?_⟩ <;> decide

theorem test_witness_ApuBankStoresBytes :
    (0x4000 ≤ (0x400F : Addr).toNat ∧ (0x400F : Addr).toNat ≤ 0x4017 ∧ (0x400F : Addr) ≠ 0x4014) ∧
      0x4018 ≤ (0x4018 : Addr).toNat ∧ (0x7FFF : Addr).toNat ≤ 0x7FFF := by decide

theorem test_witness_ControllerPortAccesses :
    ((0x01 : Byte).getLsbD 0, (0xFE : Byte).getLsbD 0, base.ctl.strobe, base.ctl.readBit.val) = (true, false, false, 0) := by
  decide

theorem test_witness_ControllerReadsButtonsInOrder :
    (0x01 : Byte).getLsbD 0 = true ∧ (0xFE : Byte).getLsbD 0 = false := by decide

theorem test_witness_PrgWindowsOfTheFixedMapping :
    (∀ k, base.mapper ≠ .unsupported k) ∧ base.cart.prgBanks = 1 ∧
      0x8000 ≤ (0xBFFF : Addr).toNat ∧ (0xBFFF : Addr).toNat < 0xC000 ∧
      2 ≤ { base.cart with prgBanks := 2 }.prgBanks := by
  refine ⟨fun _ h => ?_, ?_⟩
  · cases h
  · decide

theorem test_witness_UnmappedCartridgeSpaceDraws :
    0x4020 ≤ (0x4020 : Addr).toNat ∧ (0x7FFF : Addr).toNat ≤ 0x7FFF ∧ 0x8000 ≤ (0x8000 : Addr).toNat ∧
      (State.powerOn { Cartridge.blank with mapper := 4 } Params.default ResetValues.zero).mapper = .unsupported 4 :=
  ⟨by decide, by decide, by decide, rfl⟩

/-- The MMC1 registers right after reset. -/
def mmc1 : Mmc1 := { shift := 0x10, control := 0, chr0 := 0, chr1 := 0, prg := 0 }

theorem test_witness_Mmc1SerialProtocol :
    (base.setMapper (.mmc1 mmc1)).mapper = .mmc1 mmc1 ∧ mmc1.shift = 0x10 ∧
      (∀ a ∈ ([0x8000, 0x9FFF, 0xA000, 0xE000, 0xFFFF] : List Addr), 0x8000 ≤ a.toNat) ∧
      (∀ v ∈ ([0x01, 0x00, 0x7F, 0x00, 0x01] : List Byte), v.getLsbD 7 = false) ∧
      (0x80 : Byte).getLsbD 7 = true :=
  ⟨rfl, rfl, by simp, by simp, rfl⟩

theorem test_witness_Mmc1RegistersAreUnobservable :
    (base.setMapper (.mmc1 mmc1)).mmc1Twin (base.setMapper (.mmc1 { mmc1 with prg := 0x0F })) :=
  ⟨mmc1, _, rfl, rfl⟩

theorem test_witness_NmiIsTakenOnTheRisingEdge :
    let s : State := { base with ppu := { base.ppu with ctrl := 0x80, status := 0x80 } }
    s.cyclesRemaining = 0 ∧ (s.ppu.ctrl.getLsbD 7 && s.ppu.status.getLsbD 7) = true ∧ s.nmiPrev = false ∧
      { s with cyclesRemaining := 1 }.cyclesRemaining = 0 + 1 := by decide

theorem test_witness_TickOrdersTheAgents :
    base.halted = none ∧ base.tick % 3 = 0 ∧ { base with tick := 2 }.tick % 3 ≠ 0 ∧
      { base with cyclesRemaining := 1 }.halted = none ∧
      (∃ t, cpuStep (videoStep { base with cyclesRemaining := 1 }) = .next t) ∧
      base.apu.reloadLinear = false ∧ base.apu.reloadNoise = false :=
  ⟨rfl, rfl, by decide, rfl, ⟨_, rfl⟩, rfl, rfl⟩

theorem test_witness_FaultsHaltTheMachine : ∃ f, step (withProgram [0x02] base) = .fault f := ⟨_, rfl⟩

theorem test_witness_InstructionTimingInTicks :
    let s := withProgram [0xA9, 0x05] base
    s.startsInstruction ∧ ∃ t, step s = .next t ∧ t.cyclesRemaining = 2 :=
  ⟨⟨rfl, rfl, rfl⟩, ⟨_, rfl, rfl⟩⟩

theorem test_witness_ResetStateTable :
    ({ Cartridge.blank with mapper := 1 }.mapper ≤ 1) ∧ 2 ≤ { Cartridge.blank with mapper := 4 }.mapper := by decide

/-- A running state that is not the reset state and meets the invariant. -/
def running : State := { ramAt 0x200 [0x12] base with cyclesRemaining := 520, tick := 4 }

theorem test_witness_EveryStepKeepsTheInvariant :
    running.Inv ∧ step running = .next { videoStep running with tick := 5 } := by
  have hc : AdmittedCartridge running.cart := by constructor <;> decide
  have hs : running.Storage := by
    constructor
    case cart => exact hc
    case mapper => rfl
    all_goals decide
  exact ⟨⟨hs, rfl, by decide, rfl⟩, rfl⟩

theorem test_witness_CanonicalMemoriesAreEqualWhenTheyReadAlike :
    Memory.wf [(0, 1), (0x7FF, 2)] = true ∧ Memory.wf [(0, 0)] = false ∧ Memory.wf [(1, 1), (0, 1)] = false ∧
      Memory.write [(0, 1), (0x7FF, 2)] 0 0 = [(0x7FF, 2)] := by decide

end Sys2Proof.Machine.Tests
end

section
/-! The MMC1 registers are unobservable (O49): every operation of the model, run in two states that differ at
most in the MMC1 registers, gives the same value and such states again, or faults for the same reason. -/

namespace Sys2Proof.Machine

/-! ### Twin outcomes of an access -/

/-- Two faults for the same reason that leave twins. -/
def Fault.mmc1Twin (f g : Fault) : Prop := f.reason = g.reason ∧ f.final.mmc1Twin g.final

/-- Two accesses that give the same value and twins, or fault for the same reason and leave twins. -/
def Access.mmc1Twin {α : Type} : Access α → Access α → Prop
  | .done v s, .done w t => v = w ∧ s.mmc1Twin t
  | .raised f, .raised g => f.mmc1Twin g
  | _, _ => False

/-- Sequencing keeps twins, if the second part does. -/
theorem Access.mmc1Twin.bind {α β : Type} {r r' : Access α} {k k' : α → State → Access β}
    (h : r.mmc1Twin r') (hk : ∀ v s t, s.mmc1Twin t → (k v s).mmc1Twin (k' v t)) :
    (r.bind k).mmc1Twin (r'.bind k') := by
  cases r with
  | done v s =>
    cases r' with
    | done w t =>
      obtain ⟨rfl, ht⟩ := h
      exact hk v s t ht
    | raised g => exact h.elim
  | raised f =>
    cases r' with
    | done w t => exact h.elim
    | raised g => exact h

/-- The last part of an instruction keeps twins. -/
theorem Access.mmc1Twin.andThen {α : Type} {r r' : Access α} {k k' : α → State → Outcome}
    (h : r.mmc1Twin r') (hk : ∀ v s t, s.mmc1Twin t → outcomeTwin (k v s) (k' v t)) :
    outcomeTwin (r.andThen k) (r'.andThen k') := by
  cases r with
  | done v s =>
    cases r' with
    | done w t =>
      obtain ⟨rfl, ht⟩ := h
      exact hk v s t ht
    | raised g => exact h.elim
  | raised f =>
    cases r' with
    | done w t => exact h.elim
    | raised g => exact h

/-- Twin outcomes are two next states or two faults. -/
theorem outcomeTwin.cases {o o' : Outcome} (h : outcomeTwin o o') :
    (∃ s t, o = .next s ∧ o' = .next t ∧ s.mmc1Twin t) ∨
    (∃ f g, o = .fault f ∧ o' = .fault g ∧ f.mmc1Twin g) := by
  cases o with
  | next s =>
    cases o' with
    | next t => exact .inl ⟨s, t, rfl, rfl, h⟩
    | fault g => exact h.elim
    | refused r => exact h.elim
  | fault f =>
    cases o' with
    | next t => exact h.elim
    | fault g => exact .inr ⟨f, g, rfl, rfl, h⟩
    | refused r => exact h.elim
  | refused r => cases o' <;> exact h.elim

section
variable {s t : State}

/-! ### Updates that do not touch the mapper -/

/-- An update that commutes with a change of the mapper keeps twins: it neither reads nor writes the
mapper. -/
theorem State.mmc1Twin.map (h : s.mmc1Twin t) (f : State → State)
    (hf : ∀ u m, f (u.setMapper m) = (f u).setMapper m) : (f s).mmc1Twin (f t) := by
  obtain ⟨r, r', hm, rfl⟩ := h
  have hs : f s = (f s).setMapper s.mapper := hf s s.mapper
  exact ⟨r, r', by rw [hs]; exact hm, hf s _⟩

/-- What does not depend on the mapper is the same in twins. -/
theorem State.mmc1Twin.value {α : Type} (h : s.mmc1Twin t) (g : State → α)
    (hg : ∀ u m, g (u.setMapper m) = g u) : g s = g t := by
  obtain ⟨r, r', -, rfl⟩ := h
  exact (hg s _).symm

/-- The same fault raised in twins. -/
theorem State.mmc1Twin.raise (h : s.mmc1Twin t) (reason : HaltReason) :
    (raise reason s).mmc1Twin (raise reason t) := by
  refine ⟨by rw [raise_reason, raise_reason], ?_⟩
  rw [raise_final, raise_final]
  exact h.map (State.setHalted · (some reason)) fun _ _ => rfl

/-! ### The bus -/

/-- With the strobe high a controller read samples the buttons (R88). -/
theorem ctlRead_of_strobe {u : State} (h : u.ctl.strobe = true) :
    ctlRead u = (ofBit (bit (resample u).ctl.latch 0), resample u) := if_pos h

/-- With the strobe low a controller read takes the next bit of the latch (R88). -/
theorem ctlRead_of_bit {u : State} (h : ¬u.ctl.strobe = true) (h' : u.ctl.readBit.val < 8) :
    ctlRead u = (ofBit (bit u.ctl.latch u.ctl.readBit.val),
      u.setCtl { u.ctl with readBit := ⟨u.ctl.readBit.val + 1, by omega⟩ }) :=
  (if_neg h).trans (dif_pos h')

/-- After the eighth bit a controller read returns 1 (R88). -/
theorem ctlRead_of_exhausted {u : State} (h : ¬u.ctl.strobe = true) (h' : ¬u.ctl.readBit.val < 8) :
    ctlRead u = (1, u) :=
  (if_neg h).trans (dif_neg h')

theorem ctlRead_setMapper (u : State) (m : Mapper) :
    ctlRead (u.setMapper m) = ((ctlRead u).1, (ctlRead u).2.setMapper m) := by
  by_cases hs : u.ctl.strobe = true
  · rw [ctlRead_of_strobe hs, ctlRead_of_strobe (u := u.setMapper m) hs]
    rfl
  · by_cases hr : u.ctl.readBit.val < 8
    · rw [ctlRead_of_bit hs hr, ctlRead_of_bit (u := u.setMapper m) hs hr]
      rfl
    · rw [ctlRead_of_exhausted hs hr, ctlRead_of_exhausted (u := u.setMapper m) hs hr]

theorem ctlWrite_setMapper (v : Byte) (u : State) (m : Mapper) :
    ctlWrite v (u.setMapper m) = (ctlWrite v u).setMapper m := by
  unfold ctlWrite
  by_cases hv : bit v 0 = true
  · rw [if_pos hv, if_pos hv]
    rfl
  · rw [if_neg hv, if_neg hv]
    by_cases hs : u.ctl.strobe = true
    · rw [if_pos hs, if_pos (show (u.setMapper m).ctl.strobe = true from hs)]
      rfl
    · rw [if_neg hs, if_neg (show ¬(u.setMapper m).ctl.strobe = true from hs)]

theorem ppuWrite_setMapper (a : Addr) (v : Byte) (u : State) (m : Mapper) :
    ppuWrite a v (u.setMapper m) = (ppuWrite a v u).setMapper m := by
  unfold ppuWrite
  split <;> rfl

theorem State.mmc1Twin.ppuRead (h : s.mmc1Twin t) (a : Addr) : (ppuRead a s).mmc1Twin (ppuRead a t) := by
  unfold Machine.ppuRead
  split
  · exact ⟨h.value (·.ppu.status) fun _ _ => rfl,
      h.map (fun u => u.setPpu (statusRead u.params u.ppu)) fun _ _ => rfl⟩
  · exact ⟨h.value (fun u => Memory.read u.ppu.oam u.ppu.oamAddr.toNat) fun _ _ => rfl, h⟩
  · exact ⟨h.value (·.ppu.readBuffer) fun _ _ => rfl,
      h.map (fun u => u.setPpu (dataRead u.cart u.ppu)) fun _ _ => rfl⟩
  · exact h.raise _

theorem State.mmc1Twin.ctlRead (h : s.mmc1Twin t) :
    (ctlRead s).1 = (ctlRead t).1 ∧ (ctlRead s).2.mmc1Twin (ctlRead t).2 :=
  ⟨h.value (fun u => (Machine.ctlRead u).1) fun u m => by rw [ctlRead_setMapper],
    h.map (fun u => (Machine.ctlRead u).2) fun u m => by rw [ctlRead_setMapper]⟩

/-- A draw takes the same free value in twins. -/
theorem State.mmc1Twin.draw (h : s.mmc1Twin t) :
    (draw s).1 = (draw t).1 ∧ (draw s).2.mmc1Twin (draw t).2 :=
  ⟨h.value (fun u => (Machine.draw u).1) fun _ _ => rfl, h.map (fun u => (Machine.draw u).2) fun _ _ => rfl⟩

/-- The banking registers select nothing: MMC1 reads through the fixed mapping (R97). -/
theorem State.mmc1Twin.mapperRead (h : s.mmc1Twin t) (a : Addr) :
    (mapperRead a s).1 = (mapperRead a t).1 ∧ (mapperRead a s).2.mmc1Twin (mapperRead a t).2 := by
  have hs : Machine.mapperRead a s = prgFixed a s := by
    obtain ⟨r, r', hm, -⟩ := h
    simp [Machine.mapperRead, hm]
  have ht : Machine.mapperRead a t = prgFixed a t := by
    obtain ⟨r, r', -, rfl⟩ := h
    rfl
  have hi : prgIndex s.cart s.params a = prgIndex t.cart t.params a :=
    h.value (fun u => prgIndex u.cart u.params a) fun _ _ => rfl
  rw [hs, ht, prgFixed, prgFixed, ← hi]
  split
  · exact ⟨h.value (fun u => Memory.read u.cart.prg _) fun _ _ => rfl, h⟩
  · exact h.draw

theorem State.mmc1Twin.busRead (h : s.mmc1Twin t) (a : Addr) : (busRead a s).mmc1Twin (busRead a t) := by
  unfold Machine.busRead
  simp only []
  split_ifs
  · exact ⟨h.value (ramRead a) fun _ _ => rfl, h⟩
  · exact h.ppuRead a
  · exact ⟨h.value (apuRead a) fun _ _ => rfl, h⟩
  · exact ⟨h.value (apuRead a) fun _ _ => rfl, h⟩
  · exact h.ctlRead
  · exact h.raise _
  · exact h.draw
  · exact h.mapperRead a

theorem State.mmc1Twin.busRead16 (h : s.mmc1Twin t) (a : Addr) :
    (busRead16 a s).mmc1Twin (busRead16 a t) := by
  unfold Machine.busRead16
  split
  · exact ⟨h.value (fun u => word (ramRead (a + 1) u) (ramRead a u)) fun _ _ => rfl, h⟩
  · exact (h.busRead a).bind fun l _ _ h => (h.busRead (a + 1)).bind fun g _ _ h => ⟨rfl, h⟩

theorem State.mmc1Twin.dmaCopy (h : s.mmc1Twin t) (page : Byte) (n : Nat) :
    (dmaCopy page n s).mmc1Twin (dmaCopy page n t) := by
  induction n generalizing s t with
  | zero => exact ⟨rfl, h⟩
  | succ n ih =>
    refine (h.busRead _).bind fun v _ _ h => ih ?_
    exact h.map (fun u => u.setPpu { u.ppu with oam := Memory.write u.ppu.oam (255 - n) v }) fun _ _ => rfl

/-- A write of the mapper changes the MMC1 registers of each twin, and nothing else. -/
theorem State.mmc1Twin.mapperWrite (h : s.mmc1Twin t) (a : Addr) (v : Byte) :
    (mapperWrite a v s).mmc1Twin (mapperWrite a v t) := by
  obtain ⟨r, r', hm, rfl⟩ := h
  have hs : Machine.mapperWrite a v s = s.setMapper (.mmc1 (r.write a v)) := by
    simp [Machine.mapperWrite, hm]
  rw [hs]
  exact ⟨r.write a v, r'.write a v, rfl, rfl⟩

theorem State.mmc1Twin.busWrite (h : s.mmc1Twin t) (a : Addr) (v : Byte) :
    (busWrite a v s).mmc1Twin (busWrite a v t) := by
  unfold Machine.busWrite
  simp only []
  split_ifs
  · exact ⟨rfl, h.map (ramWrite a v) fun _ _ => rfl⟩
  · exact ⟨rfl, h.map _ (ppuWrite_setMapper a v)⟩
  · exact (h.dmaCopy v 256).bind fun _ _ _ h => ⟨rfl, h.map (·.setExtraCycles 513) fun _ _ => rfl⟩
  · exact ⟨rfl, h.map _ (ctlWrite_setMapper v)⟩
  · exact ⟨rfl, h.map (apuWrite a v) fun _ _ => rfl⟩
  · exact ⟨rfl, h⟩
  · exact ⟨rfl, h.mapperWrite a v⟩

/-! ### The instruction shapes -/

/-- An operand resolves to the same place in twins. -/
theorem State.mmc1Twin.place (h : s.mmc1Twin t) (o : Operand) : place o s = place o t :=
  h.value (Machine.place o) fun _ _ => by cases o <;> rfl

theorem State.mmc1Twin.modeRead (h : s.mmc1Twin t) (o : Operand) :
    (modeRead (Machine.place o s) s).mmc1Twin (modeRead (Machine.place o t) t) := by
  rw [← h.place]
  cases Machine.place o s with
  | accumulator => exact ⟨h.value (·.a) fun _ _ => rfl, h⟩
  | immediate v => exact ⟨rfl, h⟩
  | memory ea => exact h.busRead ea
  | relative d => exact ⟨rfl, h⟩

theorem State.mmc1Twin.modeWrite (h : s.mmc1Twin t) (opcode : Byte) (p : Place) (v : Byte) :
    (modeWrite opcode p v s).mmc1Twin (modeWrite opcode p v t) := by
  cases p with
  | accumulator => exact ⟨rfl, h.map (·.setA v) fun _ _ => rfl⟩
  | immediate w => exact h.raise _
  | memory ea => exact h.busWrite ea v
  | relative d => exact h.raise _

theorem State.mmc1Twin.load (h : s.mmc1Twin t) (r : Reg) (o : Operand) :
    outcomeTwin (load r o s) (load r o t) :=
  (h.modeRead o).andThen fun v _ _ h =>
    h.map (fun u => advance o (setZN v (u.setReg r v))) fun _ _ => by cases r <;> rfl

theorem State.mmc1Twin.store (h : s.mmc1Twin t) (opcode : Byte) (r : Reg) (o : Operand) :
    outcomeTwin (store opcode r o s) (store opcode r o t) := by
  have hr : s.reg r = t.reg r := h.value (·.reg r) fun u m => u.reg_setMapper r m
  unfold Machine.store
  rw [← h.place, ← hr]
  exact (h.modeWrite opcode _ _).andThen fun _ _ _ h => h.map (advance o) fun _ _ => rfl

theorem State.mmc1Twin.accumulate (h : s.mmc1Twin t) (f : Byte → Byte → Flags → Byte × Flags) (o : Operand) :
    outcomeTwin (accumulate f o s) (accumulate f o t) :=
  (h.modeRead o).andThen fun m _ _ h =>
    h.map (fun u => advance o ((u.setA (f u.a m u.p).1).setP (f u.a m u.p).2)) fun _ _ => rfl

theorem State.mmc1Twin.testFlags (h : s.mmc1Twin t) (f : Byte → Byte → Flags → Flags) (r : Reg) (o : Operand) :
    outcomeTwin (testFlags f r o s) (testFlags f r o t) :=
  (h.modeRead o).andThen fun m _ _ h =>
    h.map (fun u => advance o (u.setP (f (u.reg r) m u.p))) fun _ _ => by cases r <;> rfl

theorem State.mmc1Twin.modify (h : s.mmc1Twin t) (opcode : Byte) (f : Byte → Flags → Byte × Flags)
    (o : Operand) :
    outcomeTwin (modify opcode f o s) (modify opcode f o t) := by
  have hp := h.place o
  refine (h.modeRead o).andThen fun v u w h => ?_
  have hf : f v u.p = f v w.p := h.value (fun u => f v u.p) fun _ _ => rfl
  simp only [← hp, ← hf]
  exact (h.modeWrite opcode _ _).andThen fun _ _ _ h =>
    h.map (fun x => advance o (x.setP (f v u.p).2)) fun _ _ => rfl

theorem State.mmc1Twin.branch (h : s.mmc1Twin t) (taken : Bool) (d : Byte) :
    outcomeTwin (branch taken d s) (branch taken d t) := by
  refine h.map (fun u =>
    if taken then (u.setPc (u.pc + 1)).setPc ((u.setPc (u.pc + 1)).pc + sext d) else u.setPc (u.pc + 1))
    fun _ _ => ?_
  cases taken <;> rfl

theorem State.mmc1Twin.jmpIndirect (h : s.mmc1Twin t) (w : Addr) :
    outcomeTwin (execJmpInd w s) (execJmpInd w t) :=
  (h.busRead _).andThen fun l _ _ h => (h.busRead _).andThen fun g _ _ h =>
    h.map (·.setPc (word g l)) fun _ _ => rfl

/-- An instruction that only updates the state, and not the mapper, keeps twins. -/
theorem State.mmc1Twin.exec_of_update (h : s.mmc1Twin t) {i : Instr} (f : State → State)
    (he : ∀ u, exec i u = .next (f u)) (hf : ∀ u m, f (u.setMapper m) = (f u).setMapper m) :
    outcomeTwin (exec i s) (exec i t) := by
  rw [he, he]
  exact h.map f hf

/-- Every instruction keeps twins. -/
theorem State.mmc1Twin.exec (h : s.mmc1Twin t) (i : Instr) : outcomeTwin (exec i s) (exec i t) := by
  cases i with
  | ldaImm b | ldxImm b | ldyImm b => exact h.load _ (.immediate b)
  | ldaZp _ | ldaZpX _ | ldaAbs _ | ldaAbsX _ | ldaAbsY _ | ldaIndX _ | ldaIndY _
  | ldxZp _ | ldxZpY _ | ldxAbs _ | ldxAbsY _ | ldyZp _ | ldyZpX _ | ldyAbs _ | ldyAbsX _ =>
    exact h.load _ _
  | staZp _ | staZpX _ | staAbs _ | staAbsX _ | staAbsY _ | staIndX _ | staIndY _
  | stxZp _ | stxZpY _ | stxAbs _ | styZp _ | styZpX _ | styAbs _ =>
    exact h.store _ _ _
  | adcImm b | sbcImm b | andImm b | oraImm b | eorImm b => exact h.accumulate _ (.immediate b)
  | adcZp _ | adcZpX _ | adcAbs _ | adcAbsX _ | adcAbsY _ | adcIndX _ | adcIndY _
  | sbcZp _ | sbcZpX _ | sbcAbs _ | sbcAbsX _ | sbcAbsY _ | sbcIndX _ | sbcIndY _
  | andZp _ | andZpX _ | andAbs _ | andAbsX _ | andAbsY _ | andIndX _ | andIndY _
  | oraZp _ | oraZpX _ | oraAbs _ | oraAbsX _ | oraAbsY _ | oraIndX _ | oraIndY _
  | eorZp _ | eorZpX _ | eorAbs _ | eorAbsX _ | eorAbsY _ | eorIndX _ | eorIndY _ =>
    exact h.accumulate _ _
  | cmpImm b | cpxImm b | cpyImm b => exact h.testFlags _ _ (.immediate b)
  | cmpZp _ | cmpZpX _ | cmpAbs _ | cmpAbsX _ | cmpAbsY _ | cmpIndX _ | cmpIndY _
  | cpxZp _ | cpxAbs _ | cpyZp _ | cpyAbs _ | bitZp _ | bitAbs _ =>
    exact h.testFlags _ _ _
  | aslA => exact h.modify 0x0A shiftLeft .accumulator
  | lsrA => exact h.modify 0x4A shiftRight .accumulator
  | rolA => exact h.modify 0x2A rotateLeft .accumulator
  | rorA => exact h.modify 0x6A rotateRight .accumulator
  | incZp _ | incZpX _ | incAbs _ | incAbsX _ | decZp _ | decZpX _ | decAbs _ | decAbsX _
  | aslZp _ | aslZpX _ | aslAbs _ | aslAbsX _ | lsrZp _ | lsrZpX _ | lsrAbs _ | lsrAbsX _
  | rolZp _ | rolZpX _ | rolAbs _ | rolAbsX _ | rorZp _ | rorZpX _ | rorAbs _ | rorAbsX _ =>
    exact h.modify _ _ _
  | bpl d | bmi d | bvc d | bvs d | bcc d | bcs d | bne d | beq d =>
    have hb := h.branch
    obtain ⟨r, r', -, rfl⟩ := h
    exact hb _ d
  | jmpInd w => exact h.jmpIndirect w
  | tax | tay | txa | tya | tsx | txs | inx | iny | dex | dey | jmpAbs _ | jsr _ | rts | rti | pha | php
  | pla | plp | clc | sec | cli | sei | clv | cld | sed | nop | nopU1A | nopU3A | nopU5A | nopU7A
  | nopUDA | nopUFA | nopU80 _ | nopU82 _ | nopU89 _ | nopUC2 _ | nopUE2 _ | nopU04 _ | nopU44 _
  | nopU64 _ | nopU14 _ | nopU34 _ | nopU54 _ | nopU74 _ | nopUD4 _ | nopUF4 _ | nopU0C _ | nopU1C _
  | nopU3C _ | nopU5C _ | nopU7C _ | nopUDC _ | nopUFC _ =>
    exact h.exec_of_update _ (fun _ => rfl) fun _ _ => rfl

/-! ### The step -/

theorem State.mmc1Twin.fetchOperand (h : s.mmc1Twin t) (e : Entry) :
    (fetchOperand e s).mmc1Twin (fetchOperand e t) := by
  have hpc : s.pc = t.pc := h.value (·.pc) fun _ _ => rfl
  cases e with
  | f1 i => exact ⟨rfl, h⟩
  | f2 make =>
    unfold Machine.fetchOperand
    rw [← hpc]
    exact (h.busRead s.pc).bind fun b _ _ h => ⟨rfl, h⟩
  | f3 make =>
    unfold Machine.fetchOperand
    rw [← hpc]
    exact (h.busRead16 s.pc).bind fun w _ _ h => ⟨rfl, h⟩
  | skip2 make => exact ⟨rfl, h⟩
  | skip3 make => exact ⟨rfl, h⟩

theorem State.mmc1Twin.fetch (h : s.mmc1Twin t) : (fetch s).mmc1Twin (fetch t) := by
  have hpc : s.pc = t.pc := h.value (·.pc) fun _ _ => rfl
  unfold Machine.fetch
  rw [← hpc]
  refine (h.busRead s.pc).bind fun opcode u w h => ?_
  have h1 := h.map (fun u => u.setPc (u.pc + 1)) fun _ _ => rfl
  have hc := h.value (·.instrCount) fun _ _ => rfl
  have he := h.value (fun u => entryOf u.params opcode) fun _ _ => rfl
  simp only [State.setPc_params, State.setPc_instrCount, ← hc, ← he]
  split
  · exact h1.raise _
  · exact h1.fetchOperand _

theorem State.mmc1Twin.readVector (h : s.mmc1Twin t) (a : Addr) :
    (readVector a s).1 = (readVector a t).1 ∧ (readVector a s).2.mmc1Twin (readVector a t).2 := by
  obtain ⟨hl, h1⟩ := h.mapperRead a
  obtain ⟨hh, h2⟩ := h1.mapperRead (a + 1)
  exact ⟨congrArg₂ word hh hl, h2⟩

/-- Loading PC from a vector keeps twins. -/
theorem State.mmc1Twin.jumpVector (h : s.mmc1Twin t) (a : Addr) :
    ((Machine.readVector a s).2.setPc (Machine.readVector a s).1).mmc1Twin
      ((Machine.readVector a t).2.setPc (Machine.readVector a t).1) := by
  obtain ⟨hv, h1⟩ := h.readVector a
  rw [hv]
  exact h1.map (·.setPc _) fun _ _ => rfl

theorem State.mmc1Twin.nmiEntry (h : s.mmc1Twin t) : (nmiEntry s).mmc1Twin (nmiEntry t) := by
  have hp := h.map (fun u => push (u.p.toByte false) (pushWord u.pc u)) fun _ _ => rfl
  exact (hp.map (fun u => u.setP { u.p with i := true }) fun _ _ => rfl).jumpVector nmiVector

theorem State.mmc1Twin.takeNmi (h : s.mmc1Twin t) : (takeNmi s).mmc1Twin (takeNmi t) := by
  have h1 := h.map (fun u => (nmiSample u).2) fun _ _ => rfl
  have hn : (nmiSample s).1 = (nmiSample t).1 := h.value (fun u => (nmiSample u).1) fun _ _ => rfl
  unfold Machine.takeNmi
  simp only [← hn]
  split
  · exact h1.nmiEntry
  · exact h1

theorem State.mmc1Twin.execute (h : s.mmc1Twin t) (i : Instr) :
    outcomeTwin (execute i s) (execute i t) := by
  unfold Machine.execute
  rcases (h.exec i).cases with ⟨u, w, hs, ht, h'⟩ | ⟨f, g, hs, ht, h'⟩
  · rw [hs, ht]
    exact h'.map (complete i.info.cycles) fun _ _ => rfl
  · rw [hs, ht]
    exact h'

theorem State.mmc1Twin.cpuStep (h : s.mmc1Twin t) : outcomeTwin (cpuStep s) (cpuStep t) := by
  have hc : s.cyclesRemaining = t.cyclesRemaining := h.value (·.cyclesRemaining) fun _ _ => rfl
  unfold Machine.cpuStep
  rw [← hc]
  split
  · exact h.map (fun u => { u with cyclesRemaining := s.cyclesRemaining - 1 }) fun _ _ => rfl
  · exact h.takeNmi.fetch.andThen fun i _ _ h => h.execute i

theorem State.mmc1Twin.cpuTick (h : s.mmc1Twin t) : outcomeTwin (cpuTick s) (cpuTick t) := by
  unfold Machine.cpuTick
  rcases h.cpuStep.cases with ⟨u, w, hs, ht, h'⟩ | ⟨f, g, hs, ht, h'⟩
  · rw [hs, ht]
    exact h'.map (fun u => nextTick (audioStep u)) fun _ _ => rfl
  · rw [hs, ht]
    exact h'

theorem State.mmc1Twin.tick (h : s.mmc1Twin t) : outcomeTwin (Machine.tick s) (Machine.tick t) := by
  have hh : s.halted = t.halted := h.value (·.halted) fun _ _ => rfl
  have hv := h.map videoStep fun _ _ => rfl
  have hk : (videoStep s).tick = (videoStep t).tick := h.value (fun u => (videoStep u).tick) fun _ _ => rfl
  unfold Machine.tick
  rw [← hh]
  split
  · exact h
  · simp only [← hk]
    split
    · exact hv.cpuTick
    · exact hv.map nextTick fun _ _ => rfl

end

/-- Settles O49: the step of a twin is a tick of a twin. -/
theorem mmc1RegistersAreUnobservable : Obligations.Mmc1RegistersAreUnobservable :=
  fun _ _ h => h.tick

end Sys2Proof.Machine
end

section
/-! What no instruction changes, and the invariant (O34, O58). -/

namespace Sys2Proof.Machine

/-! ### Properties kept by every access -/

/-- A property of states that registers, flags and PC are no part of, and that every bus access keeps. -/
structure AccessClosed (P : State → Prop) : Prop where
  registers : ∀ {s t : State},
    t = { s with a := t.a, x := t.x, y := t.y, sp := t.sp, pc := t.pc, p := t.p } → P s → P t
  read : ∀ {a : Addr} {v : Byte} {s t : State}, busRead a s = .done v t → P s → P t
  write : ∀ {a : Addr} {v : Byte} {s t : State}, busWrite a v s = .done () t → P s → P t

namespace AccessClosed

variable {P : State → Prop} {s t : State}

theorem modeRead (hP : AccessClosed P) {p : Place} {v : Byte} (h : modeRead p s = .done v t) (hs : P s) : P t := by
  cases p with
  | accumulator => cases h; exact hs
  | immediate w => cases h; exact hs
  | memory ea => exact hP.read h hs
  | relative d => cases h; exact hs

theorem modeWrite (hP : AccessClosed P) {opcode : Byte} {p : Place} {v : Byte}
    (h : modeWrite opcode p v s = .done () t) (hs : P s) : P t := by
  cases p with
  | accumulator => cases h; exact hP.registers rfl hs
  | immediate w => cases h
  | memory ea => exact hP.write h hs
  | relative d => cases h

/-- A push is a bus write and a change of SP. -/
theorem push (hP : AccessClosed P) (v : Byte) (hs : P s) : P (push v s) :=
  hP.registers rfl (hP.write (push_is_busWrite v s).1 hs)

/-- An instruction that completes keeps what every access keeps. -/
theorem exec (hP : AccessClosed P) {i : Instr} (h : exec i s = .next t) (hs : P s) : P t := by
  cases exec_shape i s with
  | load r o _ he =>
    obtain ⟨v, u, hu, rfl⟩ := load_next (he ▸ h)
    exact hP.registers (by cases r <;> rfl) (hP.modeRead hu hs)
  | store r o _ he =>
    obtain ⟨u, hu, rfl⟩ := store_next (he ▸ h)
    exact hP.registers rfl (hP.modeWrite hu hs)
  | accumulate f o _ he =>
    obtain ⟨m, u, hu, rfl⟩ := accumulate_next (he ▸ h)
    exact hP.registers (s := u) rfl (hP.modeRead hu hs)
  | testFlags f r o _ he =>
    obtain ⟨m, u, hu, rfl⟩ := testFlags_next (he ▸ h)
    exact hP.registers (s := u) rfl (hP.modeRead hu hs)
  | modify f o _ he =>
    obtain ⟨v, u, w, hu, hw, rfl⟩ := modify_next (he ▸ h)
    exact hP.registers (s := w) rfl (hP.modeWrite hw (hP.modeRead hu hs))
  | registers u he hu =>
    rw [he] at h
    cases h
    exact hP.registers hu hs
  | push v he =>
    rw [he] at h
    cases h
    exact hP.push v hs
  | jsr w hi =>
    subst hi
    cases h
    exact hP.registers rfl (hP.push _ (hP.push _ hs))
  | jmpIndirect w hi =>
    subst hi
    obtain ⟨l, u, hu, h⟩ := Access.andThen_next h
    obtain ⟨g, v, hv, h⟩ := Access.andThen_next h
    cases h
    exact hP.registers rfl (hP.read hv (hP.read hu hs))

end AccessClosed

/-! ### What no instruction changes -/

/-- The configuration, the clock and the state of the external units: what no instruction writes
(spec/10_state.md R44). -/
def State.fixed (s : State) :
    Cartridge × Params × Nat × Nat × Bool × Nat × Option HaltReason × Nat × Nat :=
  (s.cart, s.params, s.tick, s.instrCount, s.nmiPrev, s.cyclesRemaining, s.halted, s.video, s.audio)

/-- No access changes it. -/
theorem accessClosed_fixed (s : State) : AccessClosed (fun u => u.fixed = s.fixed) where
  registers ht hs := by
    rw [ht]
    exact hs
  read h hs := by
    rw [busRead_keeps h]
    exact hs
  write h hs := by
    rw [busWrite_keeps h]
    exact hs

/-- An instruction that completes changes neither the configuration nor the clock. -/
theorem exec_fixed {i : Instr} {s t : State} (h : exec i s = .next t) : t.fixed = s.fixed :=
  (accessClosed_fixed s).exec h rfl

/-! ### What a step can be -/

/-- A step at an instruction boundary that answers a next state: the NMI sample, a fetch, an
instruction, its completion (R271). -/
theorem cpuStep_boundary_next {s t : State} (h : s.cyclesRemaining = 0) (hc : cpuStep s = .next t) :
    ∃ i u w, fetch (takeNmi s) = .done i u ∧ exec i u = .next w ∧ t = complete i.info.cycles w := by
  rw [cpuStep_boundary h] at hc
  obtain ⟨i, u, hu, hc⟩ := Access.andThen_next hc
  unfold execute at hc
  split at hc <;> cases hc
  exact ⟨i, u, _, hu, ‹_›, rfl⟩

/-- What a tick that answers a next state can be (R270). -/
theorem tick_next {s t : State} (h : tick s = .next t) :
    (s.halted ≠ none ∧ t = s) ∨ t = nextTick (videoStep s) ∨
    ∃ u, cpuStep (videoStep s) = .next u ∧ t = nextTick (audioStep u) := by
  by_cases hh : s.halted = none
  · by_cases hk : s.tick % 3 = 0
    · rw [tick_cpu hh hk] at h
      unfold cpuTick at h
      split at h <;> cases h
      exact .inr (.inr ⟨_, ‹_›, rfl⟩)
    · rw [tick_between hh hk] at h
      cases h
      exact .inr (.inl rfl)
  · rw [tick_halted hh] at h
    cases h
    exact .inl ⟨hh, rfl⟩

/-- Before the instruction runs, the sample and the fetch have changed no configuration, no stall and no
halt. -/
theorem fetch_takeNmi_keeps {s u : State} {i : Instr} (h : fetch (takeNmi s) = .done i u) :
    u.cart = s.cart ∧ u.params = s.params ∧ u.extraCycles = s.extraCycles ∧ u.halted = s.halted := by
  obtain ⟨sp, pc, p, ram, nmiPrev, draws, hn⟩ := takeNmi_frame s
  rw [fetch_keeps h, hn]
  exact ⟨rfl, rfl, rfl, rfl⟩

/-- A CPU step that answers a next state keeps the configuration, and leaves the machine running if it was. -/
theorem cpuStep_keeps {s t : State} (h : cpuStep s = .next t) :
    t.cart = s.cart ∧ t.params = s.params ∧ t.halted = s.halted := by
  cases hn : s.cyclesRemaining with
  | succ n =>
    rw [cpuStep_counting hn] at h
    cases h
    exact ⟨rfl, rfl, rfl⟩
  | zero =>
    obtain ⟨i, u, w, hf, he, rfl⟩ := cpuStep_boundary_next hn h
    obtain ⟨hc, hp, -, hh⟩ := fetch_takeNmi_keeps hf
    have hx := exec_fixed he
    simp only [State.fixed, Prod.mk.injEq] at hx
    obtain ⟨hxc, hxp, -, -, -, -, hxh, -, -⟩ := hx
    exact ⟨hxc.trans hc, hxp.trans hp, hxh.trans hh⟩

/-- Settles O34: each instruction shape leaves the configuration and the clock, and a tick adds only the
steps of the units. -/
theorem configurationAndClockAreNotTheInstructionsToChange :
    Obligations.ConfigurationAndClockAreNotTheInstructionsToChange := by
  refine ⟨fun i s t h => ?_, fun s t h => ?_⟩
  · have hx := exec_fixed h
    simpa only [State.fixed, Prod.mk.injEq] using hx
  · rcases tick_next h with ⟨-, rfl⟩ | rfl | ⟨u, hu, rfl⟩
    · exact ⟨rfl, rfl⟩
    · exact ⟨rfl, rfl⟩
    · obtain ⟨hc, hp, -⟩ := cpuStep_keeps hu
      exact ⟨hc, hp⟩

/-! ### The stall and the reload -/

/-- A write arms the stall of an OAM DMA or leaves it (R32, R86). -/
theorem busWrite_stall {a : Addr} {v : Byte} {s t : State} (h : busWrite a v s = .done () t) :
    t.extraCycles = s.extraCycles ∨ t.extraCycles = 513 := by
  by_cases ha : a = 0x4014
  · subst ha
    obtain ⟨_, u, _, hu⟩ := Access.bind_done h
    cases hu
    exact .inr rfl
  · obtain ⟨-, -, -, -, -, hs, -, -⟩ := busWrite_frame h
    exact .inl (hs ha).1

/-- The stall an instruction can leave when it starts with none. -/
def State.stallUnarmedOrDma (s : State) : Prop := s.extraCycles = 0 ∨ s.extraCycles = 513

theorem accessClosed_stall : AccessClosed State.stallUnarmedOrDma where
  registers ht hs := by
    rw [ht]
    exact hs
  read h hs := by
    rw [busRead_keeps h]
    exact hs
  write h hs := by
    rcases busWrite_stall h with hw | hw
    · exact hs.imp hw.trans hw.trans
    · exact .inr hw

/-- No instruction has more than 7 base cycles (R272). -/
theorem cycles_le_seven (i : Instr) : i.info.cycles ≤ 7 := by
  cases i <;> exact Nat.le_of_ble_eq_true rfl

/-- The bias never lengthens a reload (R271). -/
theorem reloadValue_le (params : Params) (cycles extra : Nat) :
    reloadValue params cycles extra ≤ cycles + extra := by
  unfold reloadValue
  cases params.reloadBias with
  | zero => simp only [biasValue]; omega
  | minusOne => simp only [biasValue]; omega

/-! ### The invariant -/

/-- The video step touches nothing the invariant speaks of but PPUSTATUS. -/
theorem State.Inv.videoStep {s : State} (h : s.Inv) : (videoStep s).Inv :=
  ⟨h.storage.videoStep, h.stall, h.remaining, h.running⟩

theorem State.Inv.audioStep {s : State} (h : s.Inv) : (audioStep s).Inv :=
  ⟨h.storage.audioStep, h.stall, h.remaining, h.running⟩

theorem State.Inv.nextTick {s : State} (h : s.Inv) : (nextTick s).Inv :=
  ⟨h.storage.of_eq rfl rfl h.storage.ppu rfl rfl, h.stall, h.remaining, h.running⟩

/-- A CPU step keeps the invariant: counting only lowers the counter, and a reload is at most 7 base
cycles and a stall of 513. -/
theorem State.Inv.cpuStep {s t : State} (h : s.Inv) (hc : cpuStep s = .next t) : t.Inv := by
  obtain ⟨-, -, hh⟩ := cpuStep_keeps hc
  have hs := h.storage.cpuStep hc
  have hrun := hh.trans h.running
  cases hn : s.cyclesRemaining with
  | succ n =>
    rw [cpuStep_counting hn] at hc
    cases hc
    have hr := h.remaining
    exact ⟨hs, h.stall, by simp only []; omega, hrun⟩
  | zero =>
    obtain ⟨i, u, w, hf, he, rfl⟩ := cpuStep_boundary_next hn hc
    obtain ⟨-, -, hu, -⟩ := fetch_takeNmi_keeps hf
    have hx : w.extraCycles = 0 ∨ w.extraCycles = 513 := accessClosed_stall.exec he (.inl (hu.trans h.stall))
    refine ⟨hs, rfl, ?_, hrun⟩
    calc reloadValue w.params i.info.cycles w.extraCycles
      _ ≤ i.info.cycles + w.extraCycles := reloadValue_le _ _ _
      _ ≤ 7 + 513 := Nat.add_le_add (cycles_le_seven i) (by omega)

/-- Settles O58: the video step, the CPU step and the audio step each keep the invariant. -/
theorem everyStepKeepsTheInvariant : Obligations.EveryStepKeepsTheInvariant := by
  intro s t h hst
  rcases tick_next hst with ⟨hh, rfl⟩ | rfl | ⟨u, hu, rfl⟩
  · exact absurd h.running hh
  · exact h.videoStep.nextTick
  · exact (h.videoStep.cpuStep hu).audioStep.nextTick

end Sys2Proof.Machine
end

section
/-! Who writes the CPU registers and the flags, over all instructions (O32). -/

namespace Sys2Proof.Machine

/-! ### Registers and flags as parts of the state -/

/-- The CPU registers and flags that R20's and R26's tables list the writers of. -/
inductive Part where
  | a | x | y | sp | c | z | i | d | v | n
  deriving DecidableEq

/-- The part that is the register `R`. -/
def Part.ofReg : Reg → Part
  | .a => .a
  | .x => .x
  | .y => .y

/-- What a register or flag holds. -/
def Part.read (s : State) : Part → Byte ⊕ Bool
  | .a => .inl s.a
  | .x => .inl s.x
  | .y => .inl s.y
  | .sp => .inl s.sp
  | .c => .inr s.p.c
  | .z => .inr s.p.z
  | .i => .inr s.p.i
  | .d => .inr s.p.d
  | .v => .inr s.p.v
  | .n => .inr s.p.n

/-- Of the registers and flags, only the listed ones may differ. -/
def changesOnly (l : List Part) (s t : State) : Prop := ∀ q, q ∉ l → q.read t = q.read s

/-- `changesOnly`, part by part. -/
theorem changesOnly_iff (l : List Part) (s t : State) :
    changesOnly l s t ↔
      (.a ∉ l → t.a = s.a) ∧ (.x ∉ l → t.x = s.x) ∧ (.y ∉ l → t.y = s.y) ∧ (.sp ∉ l → t.sp = s.sp) ∧
      (.c ∉ l → t.p.c = s.p.c) ∧ (.z ∉ l → t.p.z = s.p.z) ∧ (.i ∉ l → t.p.i = s.p.i) ∧
      (.d ∉ l → t.p.d = s.p.d) ∧ (.v ∉ l → t.p.v = s.p.v) ∧ (.n ∉ l → t.p.n = s.p.n) := by
  constructor
  · intro h
    exact ⟨fun hq => Sum.inl.inj (h .a hq), fun hq => Sum.inl.inj (h .x hq), fun hq => Sum.inl.inj (h .y hq),
      fun hq => Sum.inl.inj (h .sp hq), fun hq => Sum.inr.inj (h .c hq), fun hq => Sum.inr.inj (h .z hq),
      fun hq => Sum.inr.inj (h .i hq), fun hq => Sum.inr.inj (h .d hq), fun hq => Sum.inr.inj (h .v hq),
      fun hq => Sum.inr.inj (h .n hq)⟩
  · rintro ⟨ha, hx, hy, hsp, hc, hz, hi, hd, hv, hn⟩ q hq
    cases q with
    | a => exact congrArg Sum.inl (ha hq)
    | x => exact congrArg Sum.inl (hx hq)
    | y => exact congrArg Sum.inl (hy hq)
    | sp => exact congrArg Sum.inl (hsp hq)
    | c => exact congrArg Sum.inr (hc hq)
    | z => exact congrArg Sum.inr (hz hq)
    | i => exact congrArg Sum.inr (hi hq)
    | d => exact congrArg Sum.inr (hd hq)
    | v => exact congrArg Sum.inr (hv hq)
    | n => exact congrArg Sum.inr (hn hq)

section
variable {s t u : State} {l l' : List Part}

theorem changesOnly.trans (h : changesOnly l s u) (h' : changesOnly l' u t) :
    changesOnly (l ++ l') s t := by
  intro q hq
  rw [List.mem_append, not_or] at hq
  exact (h' q hq.2).trans (h q hq.1)

theorem changesOnly.mono (h : changesOnly l s t) (hl : l ⊆ l') : changesOnly l' s t :=
  fun q hq => h q fun hm => hq (hl hm)

/-! ### What each update changes -/

/-- PC and everything outside the CPU are no part. -/
theorem changesOnly_nil (h : t = { t with a := s.a, x := s.x, y := s.y, sp := s.sp, p := s.p }) :
    changesOnly [] s t := by
  rw [h]
  simp [changesOnly_iff]

/-- Moving PC changes no part. -/
theorem changesOnly.setPc (h : changesOnly l s u) (w : Addr) : changesOnly l s (u.setPc w) := by
  have hpc := changesOnly_nil (s := u) (t := u.setPc w) rfl
  exact fun q hq => (hpc q List.not_mem_nil).trans (h q hq)

theorem changesOnly_setReg (r : Reg) (v : Byte) : changesOnly [.ofReg r] s (s.setReg r v) := by
  cases r <;> simp [changesOnly_iff, Part.ofReg, State.setReg]

theorem changesOnly_setSp (v : Byte) : changesOnly [.sp] s (s.setSp v) := by
  simp [changesOnly_iff]

theorem changesOnly_setP (p : Flags) : changesOnly [.c, .z, .i, .d, .v, .n] s (s.setP p) := by
  simp [changesOnly_iff]

theorem changesOnly_setZN (v : Byte) : changesOnly [.z, .n] s (s.setP (s.p.setZN v)) := by
  simp [changesOnly_iff, Flags.setZN]

theorem changesOnly_addWithCarry (s : State) (a m : Byte) :
    changesOnly [.c, .v, .z, .n] s (s.setP (addWithCarry a m s.p).2) := by
  simp [changesOnly_iff, addWithCarry, Flags.setZN]

theorem changesOnly_subtractWithBorrow (s : State) (a m : Byte) :
    changesOnly [.c, .v, .z, .n] s (s.setP (subtractWithBorrow a m s.p).2) :=
  changesOnly_addWithCarry s a (~~~m)

/-- Compare, shift and rotate write C and then N and Z. -/
theorem changesOnly_setCZN (c : Bool) (v : Byte) :
    changesOnly [.c, .z, .n] s (s.setP ({ s.p with c := c }.setZN v)) := by
  simp [changesOnly_iff, Flags.setZN]

theorem changesOnly_compareFlags (s : State) (r m : Byte) :
    changesOnly [.c, .z, .n] s (s.setP (compareFlags r m s.p)) := changesOnly_setCZN _ _

theorem changesOnly_logical (f : Byte → Byte → Byte) (s : State) (a m : Byte) :
    changesOnly [.z, .n] s (s.setP (logical f a m s.p).2) := changesOnly_setZN _

theorem changesOnly_setC (c : Bool) : changesOnly [.c] s (s.setP { s.p with c := c }) := by
  simp [changesOnly_iff]

theorem changesOnly_setI (i : Bool) : changesOnly [.i] s (s.setP { s.p with i := i }) := by
  simp [changesOnly_iff]

theorem changesOnly_setD (d : Bool) : changesOnly [.d] s (s.setP { s.p with d := d }) := by
  simp [changesOnly_iff]

theorem changesOnly_setV (v : Bool) : changesOnly [.v] s (s.setP { s.p with v := v }) := by
  simp [changesOnly_iff]

theorem changesOnly_bitTest (s : State) (a m : Byte) : changesOnly [.z, .n, .v] s (s.setP (bitTest a m s.p)) := by
  simp [changesOnly_iff, bitTest]

theorem changesOnly_push (v : Byte) : changesOnly [.sp] s (push v s) :=
  (changesOnly_nil (t := ramWrite (stackAddr s.sp) v s) rfl).trans (changesOnly_setSp _)

theorem changesOnly_pushWord (w : Addr) : changesOnly [.sp] s (pushWord w s) :=
  ((changesOnly_push _).trans (changesOnly_push _)).mono (by simp)

theorem changesOnly_pull : changesOnly [.sp] s (pull s).2 := changesOnly_setSp _

theorem changesOnly_pullWord : changesOnly [.sp] s (pullWord s).2 :=
  (changesOnly_pull.trans changesOnly_pull).mono (by simp)

theorem changesOnly_returnFromInterrupt :
    changesOnly [.sp, .c, .z, .i, .d, .v, .n] s (returnFromInterrupt s) :=
  ((changesOnly_pull.trans ((changesOnly_setP _).trans changesOnly_pullWord)).setPc _).mono (by simp)

theorem changesOnly_busRead {a : Addr} {v : Byte} (h : busRead a s = .done v t) : changesOnly [] s t :=
  changesOnly_nil (by rw [busRead_keeps h])

theorem changesOnly_modeRead {p : Place} {v : Byte} (h : modeRead p s = .done v t) : changesOnly [] s t :=
  changesOnly_nil (by rw [modeRead_keeps h])

/-- A write through a mode leaves the flags. -/
theorem modeWrite_p {opcode : Byte} {p : Place} {v : Byte} (h : modeWrite opcode p v s = .done () t) :
    t.p = s.p := by
  cases p with
  | accumulator => cases h; rfl
  | immediate w => cases h
  | memory ea => rw [busWrite_keeps h]
  | relative d => cases h

/-- The register that a write through the operand changes. -/
def Operand.written : Operand → List Part
  | .accumulator => [.a]
  | _ => []

theorem changesOnly_modeWrite {opcode : Byte} {o : Operand} {v : Byte}
    (h : modeWrite opcode (place o s) v u = .done () t) : changesOnly o.written u t := by
  cases o with
  | accumulator =>
    cases h
    exact changesOnly_setReg .a v
  | immediate w => cases h
  | relative d => cases h
  | zeroPage _ | zeroPageX _ | zeroPageY _ | absolute _ | absoluteX _ | absoluteY _ | indirectX _ | indirectY _ =>
    exact changesOnly_nil (by rw [busWrite_keeps h])

/-! ### What each instruction shape changes -/

theorem changesOnly_load {r : Reg} {o : Operand} (h : load r o s = .next t) :
    changesOnly [.ofReg r, .z, .n] s t := by
  obtain ⟨v, u, hu, rfl⟩ := load_next h
  exact (changesOnly_modeRead hu).trans (((changesOnly_setReg r v).trans (changesOnly_setZN v)).setPc _)

theorem changesOnly_store {opcode : Byte} {r : Reg} {o : Operand} (h : store opcode r o s = .next t) :
    changesOnly o.written s t := by
  obtain ⟨u, hu, rfl⟩ := store_next h
  exact (changesOnly_modeWrite hu).setPc _

theorem changesOnly_accumulate {f : Byte → Byte → Flags → Byte × Flags} {o : Operand}
    (hf : ∀ (w : State) a m, changesOnly l w (w.setP (f a m w.p).2)) (h : accumulate f o s = .next t) :
    changesOnly (.a :: l) s t := by
  obtain ⟨m, u, hu, rfl⟩ := accumulate_next h
  exact (changesOnly_modeRead hu).trans
    (((changesOnly_setReg .a (f u.a m u.p).1).trans (hf (u.setA _) u.a m)).setPc _)

theorem changesOnly_testFlags {f : Byte → Byte → Flags → Flags} {r : Reg} {o : Operand}
    (hf : ∀ (w : State) a m, changesOnly l w (w.setP (f a m w.p))) (h : testFlags f r o s = .next t) :
    changesOnly l s t := by
  obtain ⟨m, u, hu, rfl⟩ := testFlags_next h
  exact (changesOnly_modeRead hu).trans ((hf u _ m).setPc _)

theorem changesOnly_modify {opcode : Byte} {f : Byte → Flags → Byte × Flags} {o : Operand}
    (hf : ∀ (w : State) v, changesOnly l w (w.setP (f v w.p).2)) (h : modify opcode f o s = .next t) :
    changesOnly (o.written ++ l) s t := by
  obtain ⟨v, u, w, hu, hw, rfl⟩ := modify_next h
  rw [← modeWrite_p hw]
  exact (changesOnly_modeRead hu).trans (((changesOnly_modeWrite hw).trans (hf w v)).setPc _)

theorem changesOnly_modifyReg {f : Byte → Flags → Byte × Flags} {r : Reg}
    (hf : ∀ (w : State) v, changesOnly l w (w.setP (f v w.p).2)) (h : modifyReg f r s = .next t) :
    changesOnly (.ofReg r :: l) s t := by
  cases h
  have hp : (s.setReg r (f (s.reg r) s.p).1).p = s.p := State.setReg_p s r _
  have hz := hf (s.setReg r (f (s.reg r) s.p).1) (s.reg r)
  rw [hp] at hz
  exact (changesOnly_setReg r _).trans hz

theorem changesOnly_transfer {r : Reg} {v : Byte} (h : transfer r v s = .next t) :
    changesOnly [.ofReg r, .z, .n] s t := by
  cases h
  exact (changesOnly_setReg r v).trans (changesOnly_setZN v)

theorem changesOnly_branch {taken : Bool} {d : Byte} (h : branch taken d s = .next t) : changesOnly [] s t := by
  cases h
  refine changesOnly_nil ?_
  split <;> rfl

theorem changesOnly_jmpIndirect {w : Addr} (h : execJmpInd w s = .next t) : changesOnly [] s t := by
  obtain ⟨l, u, hu, h⟩ := Access.andThen_next h
  obtain ⟨g, v, hv, h⟩ := Access.andThen_next h
  cases h
  exact ((changesOnly_busRead hu).trans (changesOnly_busRead hv)).setPc _

end

/-! ### The tables of writers -/

/-- The mnemonics of R20's and R26's columns of writers. -/
def Part.writers : Part → List Mnemonic
  | .a => [.lda, .txa, .tya, .pla, .adc, .sbc, .and, .ora, .eor]
  | .x => [.ldx, .tax, .tsx, .inx, .dex]
  | .y => [.ldy, .tay, .iny, .dey]
  | .sp => [.txs, .pha, .php, .pla, .plp, .jsr, .rts, .rti]
  | .c => [.adc, .sbc, .cmp, .cpx, .cpy, .asl, .lsr, .rol, .ror, .clc, .sec, .plp, .rti]
  | .i => [.cli, .sei, .plp, .rti]
  | .d => [.cld, .sed, .plp, .rti]
  | .v => [.adc, .sbc, .bit, .clv, .plp, .rti]
  | .z | .n =>
    [.lda, .ldx, .ldy, .tax, .tay, .txa, .tya, .tsx, .pla, .and, .ora, .eor, .adc, .sbc] ++
    [.cmp, .cpx, .cpy, .inc, .dec, .inx, .iny, .dex, .dey, .asl, .lsr, .rol, .ror] ++
    [.bit, .plp, .rti]

/-- The same tables by mnemonic: what it writes, the Accumulator forms' write of A apart. -/
def mnemonicWrites : Mnemonic → List Part
  | .lda | .txa | .tya | .and | .ora | .eor => [.a, .z, .n]
  | .ldx | .tax | .tsx | .inx | .dex => [.x, .z, .n]
  | .ldy | .tay | .iny | .dey => [.y, .z, .n]
  | .adc | .sbc => [.a, .c, .v, .z, .n]
  | .cmp | .cpx | .cpy | .asl | .lsr | .rol | .ror => [.c, .z, .n]
  | .bit => [.z, .n, .v]
  | .inc | .dec => [.z, .n]
  | .txs | .pha | .php | .jsr | .rts => [.sp]
  | .pla => [.sp, .a, .z, .n]
  | .plp | .rti => [.sp, .c, .z, .i, .d, .v, .n]
  | .clc | .sec => [.c]
  | .cli | .sei => [.i]
  | .cld | .sed => [.d]
  | .clv => [.v]
  | .sta | .stx | .sty | .bpl | .bmi | .bvc | .bvs | .bcc | .bcs | .bne | .beq | .jmp | .nop | .nopStar => []

/-- What a mnemonic writes is what lists it as a writer. -/
theorem mem_writers_of_mnemonicWrites (m : Mnemonic) : ∀ q ∈ mnemonicWrites m, m ∈ q.writers := by
  cases m <;> decide

/-- What the addressing mode of a read-modify-write instruction adds: the Accumulator form writes A. -/
def modeWrites : AddrMode → List Part
  | .accumulator => [.a]
  | _ => []

theorem mem_modeWrites {m : AddrMode} {q : Part} (h : q ∈ modeWrites m) : q = .a ∧ m = .accumulator := by
  unfold modeWrites at h
  split at h
  · exact ⟨List.mem_singleton.1 h, rfl⟩
  · cases h

/-- What an instruction may write. -/
def instrWrites (i : Instr) : List Part := modeWrites i.info.mode ++ mnemonicWrites i.info.mnemonic

/-- Every instruction that completes changes only what its mnemonic and mode write. -/
theorem changesOnly_exec {i : Instr} {s t : State} (h : exec i s = .next t) :
    changesOnly (instrWrites i) s t := by
  cases i with
  | ldaImm b | ldxImm b | ldyImm b => exact changesOnly_load (o := .immediate b) h
  | ldaZp _ | ldaZpX _ | ldaAbs _ | ldaAbsX _ | ldaAbsY _ | ldaIndX _ | ldaIndY _
  | ldxZp _ | ldxZpY _ | ldxAbs _ | ldxAbsY _ | ldyZp _ | ldyZpX _ | ldyAbs _ | ldyAbsX _ =>
    exact changesOnly_load h
  | staZp _ | staZpX _ | staAbs _ | staAbsX _ | staAbsY _ | staIndX _ | staIndY _
  | stxZp _ | stxZpY _ | stxAbs _ | styZp _ | styZpX _ | styAbs _ =>
    exact changesOnly_store h
  | adcImm b => exact changesOnly_accumulate (o := .immediate b) changesOnly_addWithCarry h
  | adcZp _ | adcZpX _ | adcAbs _ | adcAbsX _ | adcAbsY _ | adcIndX _ | adcIndY _ =>
    exact changesOnly_accumulate changesOnly_addWithCarry h
  | sbcImm b => exact changesOnly_accumulate (o := .immediate b) changesOnly_subtractWithBorrow h
  | sbcZp _ | sbcZpX _ | sbcAbs _ | sbcAbsX _ | sbcAbsY _ | sbcIndX _ | sbcIndY _ =>
    exact changesOnly_accumulate changesOnly_subtractWithBorrow h
  | andImm b | oraImm b | eorImm b =>
    exact changesOnly_accumulate (o := .immediate b) (changesOnly_logical _) h
  | andZp _ | andZpX _ | andAbs _ | andAbsX _ | andAbsY _ | andIndX _ | andIndY _
  | oraZp _ | oraZpX _ | oraAbs _ | oraAbsX _ | oraAbsY _ | oraIndX _ | oraIndY _
  | eorZp _ | eorZpX _ | eorAbs _ | eorAbsX _ | eorAbsY _ | eorIndX _ | eorIndY _ =>
    exact changesOnly_accumulate (changesOnly_logical _) h
  | cmpImm b | cpxImm b | cpyImm b =>
    exact changesOnly_testFlags (o := .immediate b) changesOnly_compareFlags h
  | cmpZp _ | cmpZpX _ | cmpAbs _ | cmpAbsX _ | cmpAbsY _ | cmpIndX _ | cmpIndY _
  | cpxZp _ | cpxAbs _ | cpyZp _ | cpyAbs _ =>
    exact changesOnly_testFlags changesOnly_compareFlags h
  | bitZp _ | bitAbs _ => exact changesOnly_testFlags changesOnly_bitTest h
  | incZp _ | incZpX _ | incAbs _ | incAbsX _ | decZp _ | decZpX _ | decAbs _ | decAbsX _ =>
    exact changesOnly_modify (fun _ _ => changesOnly_setZN _) h
  | aslA =>
    exact changesOnly_modify (opcode := 0x0A) (f := shiftLeft) (o := .accumulator)
      (fun _ _ => changesOnly_setCZN _ _) h
  | lsrA =>
    exact changesOnly_modify (opcode := 0x4A) (f := shiftRight) (o := .accumulator)
      (fun _ _ => changesOnly_setCZN _ _) h
  | rolA =>
    exact changesOnly_modify (opcode := 0x2A) (f := rotateLeft) (o := .accumulator)
      (fun _ _ => changesOnly_setCZN _ _) h
  | rorA =>
    exact changesOnly_modify (opcode := 0x6A) (f := rotateRight) (o := .accumulator)
      (fun _ _ => changesOnly_setCZN _ _) h
  | aslZp _ | aslZpX _ | aslAbs _ | aslAbsX _ | lsrZp _ | lsrZpX _ | lsrAbs _ | lsrAbsX _
  | rolZp _ | rolZpX _ | rolAbs _ | rolAbsX _ | rorZp _ | rorZpX _ | rorAbs _ | rorAbsX _ =>
    exact changesOnly_modify (fun _ _ => changesOnly_setCZN _ _) h
  | inx | iny | dex | dey => exact changesOnly_modifyReg (fun _ _ => changesOnly_setZN _) h
  | tax | tay | txa | tya | tsx => exact changesOnly_transfer h
  | txs =>
    cases h
    exact changesOnly_setSp _
  | pla => exact changesOnly_pull.trans (changesOnly_transfer h)
  | plp =>
    cases h
    exact changesOnly_pull.trans (changesOnly_setP _)
  | pha | php =>
    cases h
    exact changesOnly_push _
  | jsr w =>
    cases h
    exact (changesOnly_pushWord _).setPc _
  | rts =>
    cases h
    exact changesOnly_pullWord.setPc _
  | rti =>
    cases h
    exact changesOnly_returnFromInterrupt
  | bpl _ | bmi _ | bvc _ | bvs _ | bcc _ | bcs _ | bne _ | beq _ => exact changesOnly_branch h
  | jmpInd _ => exact changesOnly_jmpIndirect h
  | clc | sec =>
    cases h
    exact changesOnly_setC _
  | cli | sei =>
    cases h
    exact changesOnly_setI _
  | cld | sed =>
    cases h
    exact changesOnly_setD _
  | clv =>
    cases h
    exact changesOnly_setV _
  | jmpAbs _ | nop | nopU1A | nopU3A | nopU5A | nopU7A | nopUDA | nopUFA | nopU80 _ | nopU82 _ | nopU89 _
  | nopUC2 _ | nopUE2 _ | nopU04 _ | nopU44 _ | nopU64 _ | nopU14 _ | nopU34 _ | nopU54 _ | nopU74 _
  | nopUD4 _ | nopUF4 _ | nopU0C _ | nopU1C _ | nopU3C _ | nopU5C _ | nopU7C _ | nopUDC _ | nopUFC _ =>
    cases h
    exact changesOnly_nil rfl

/-- Off the lists, a part is not written: for A, outside the Accumulator forms. -/
theorem not_mem_instrWrites {i : Instr} {q : Part} (h : i.info.mnemonic ∉ q.writers)
    (ha : q ≠ .a ∨ i.info.mode ≠ .accumulator) : q ∉ instrWrites i := by
  intro hq
  rcases List.mem_append.1 hq with hm | hm
  · obtain ⟨hqa, hacc⟩ := mem_modeWrites hm
    exact ha.elim (· hqa) (· hacc)
  · exact h (mem_writers_of_mnemonicWrites _ q hm)

/-- Settles O32: each instruction changes only what its mnemonic and mode write. -/
theorem registersAndFlagsHaveOnlyTheirWriters : Obligations.RegistersAndFlagsHaveOnlyTheirWriters := by
  intro i s t h
  obtain ⟨ha, hx, hy, hsp, hc, hz, hi, hd, hv, hn⟩ := (changesOnly_iff _ _ _).1 (changesOnly_exec h)
  exact ⟨fun hm hacc => ha (not_mem_instrWrites hm (.inr hacc)),
    fun hm => hx (not_mem_instrWrites hm (.inl nofun)),
    fun hm => hy (not_mem_instrWrites hm (.inl nofun)),
    fun hm => hsp (not_mem_instrWrites hm (.inl nofun)),
    fun hm => hc (not_mem_instrWrites hm (.inl nofun)),
    fun hm => ⟨hz (not_mem_instrWrites hm (.inl nofun)), hn (not_mem_instrWrites hm (.inl nofun))⟩,
    fun hm => hi (not_mem_instrWrites hm (.inl nofun)),
    fun hm => hd (not_mem_instrWrites hm (.inl nofun)),
    fun hm => hv (not_mem_instrWrites hm (.inl nofun))⟩

end Sys2Proof.Machine
end

section
/-! Canonical memories are determined by what they read (O59). -/

namespace Sys2Proof.Memory

/-- A byte that does not read as an unlisted one is listed. -/
theorem mem_of_read {m : Memory} {k : Nat} (h : read m k ≠ unlisted) : (k, read m k) ∈ m := by
  induction m with
  | nil => exact absurd rfl h
  | cons c rest ih =>
    obtain ⟨i, v⟩ := c
    by_cases hi : i = k
    · simp [read, hi]
    · simp only [read, if_neg hi] at h ⊢
      exact List.mem_cons_of_mem _ (ih h)

/-- Where the indices rise, a listed byte reads as its entry. -/
theorem read_of_mem {m : Memory} (hm : m.Pairwise fun c d => c.1 < d.1) {c : Host.Cell} (h : c ∈ m) :
    read m c.1 = c.2 := by
  induction m with
  | nil => cases h
  | cons d rest ih =>
    obtain ⟨i, v⟩ := d
    obtain ⟨hd, hr⟩ := List.pairwise_cons.1 hm
    rcases List.mem_cons.1 h with rfl | h
    · simp [read]
    · have hi : i ≠ c.1 := Nat.ne_of_lt (hd c h)
      simp only [read, if_neg hi]
      exact ih hr h

/-- The entries of a canonical memory are the bytes that do not read as unlisted ones. -/
theorem mem_iff_read {m : Memory} (h : wf m = true) (c : Host.Cell) :
    c ∈ m ↔ read m c.1 = c.2 ∧ c.2 ≠ unlisted := by
  obtain ⟨hp, hv⟩ := (wf_iff m).1 h
  refine ⟨fun hc => ⟨read_of_mem hp hc, hv c hc⟩, fun ⟨hr, hne⟩ => ?_⟩
  have hm := mem_of_read (hr ▸ hne)
  rwa [hr] at hm

/-- Canonical memories that read alike are the same list: the same entries, in the same order. -/
theorem eq_of_read_eq {m n : Memory} (hm : wf m = true) (hn : wf n = true)
    (h : ∀ k, read m k = read n k) : m = n := by
  have : Std.Antisymm fun c d : Host.Cell => c.1 < d.1 := ⟨fun _ _ hcd hdc => absurd hdc (Nat.lt_asymm hcd)⟩
  have : Std.Irrefl fun c d : Host.Cell => c.1 < d.1 := ⟨fun c => Nat.lt_irrefl c.1⟩
  refine ((wf_iff m).1 hm).1.eq_of_mem_iff ((wf_iff n).1 hn).1 fun c => ?_
  rw [mem_iff_read hm, mem_iff_read hn, h]

/-- Settles O59: a canonical memory lists exactly the bytes that read as something. -/
theorem canonicalMemoriesAreEqualWhenTheyReadAlike : Obligations.CanonicalMemoriesAreEqualWhenTheyReadAlike :=
  ⟨fun _ _ hm hn h => eq_of_read_eq hm hn h, fun _ k v h => write_wf h k v⟩

end Sys2Proof.Memory
end

section
/-! Reads and writes of RAM, which bus reads fault and what the others change (O35, O36, O37). -/

namespace Sys2Proof

/-- `{h, l}` is the number h*256 + l (R51). -/
theorem word_eq_ofNat (h l : Byte) : word h l = BitVec.ofNat 16 (h.toNat * 256 + l.toNat) := by
  have hh := h.isLt
  have hl := l.isLt
  apply BitVec.eq_of_toNat_eq
  rw [toNat_word, BitVec.toNat_ofNat, Nat.mod_eq_of_lt (by omega)]

end Sys2Proof

namespace Sys2Proof.Machine

/-! ### Two-byte reads -/

/-- The next address modulo 65536, as a number. -/
theorem add_one_eq_ofNat (a : Addr) : a + 1 = BitVec.ofNat 16 ((a.toNat + 1) % 65536) := by
  apply BitVec.eq_of_toNat_eq
  simp

/-- The RAM cell after an address, masked (R58, R62). -/
theorem ramIndex_add_one (a : Addr) : ramIndex (a + 1) = (a.toNat + 1) % 2048 := by
  rw [ramIndex, add_one_eq_ofNat, BitVec.toNat_ofNat]
  omega

/-- At or below $1FFF both bytes come from RAM (R58). -/
theorem busRead16_ram {a : Addr} {s : State} (h : a.toNat < 0x2000) :
    busRead16 a s = .done (word (ramRead (a + 1) s) (ramRead a s)) s := if_pos h

/-- Above $1FFF the low byte is read, then the high byte (R58). -/
theorem busRead16_bus {a : Addr} {s : State} (h : ¬a.toNat < 0x2000) :
    busRead16 a s = (busRead a s).bind fun l s => (busRead (a + 1) s).bind fun h s => .done (word h l) s :=
  if_neg h

/-- Settles O35: RAM accesses are the reads and writes of one cell, and a two-byte read is two one-byte reads. -/
theorem ramIsMirroredAndWordsAreLittleEndian : Obligations.RamIsMirroredAndWordsAreLittleEndian := by
  refine ⟨fun a b v s ha hb => ⟨busRead_ram ha, _, busWrite_ram ha, rfl, ?_⟩,
    fun a s => ⟨fun ha => ?_, fun ha => ?_⟩⟩
  · rw [busRead_ram hb]
    simp only [ramRead, ramWrite, State.setRam_ram, Memory.read_write, ramIndex,
      eq_comm (a := a.toNat % 2048)]
  · rw [busRead16_ram (by omega), word_eq_ofNat, ramRead, ramIndex_add_one]
    rfl
  · rw [busRead16_bus (by omega), add_one_eq_ofNat]
    cases busRead a s with
    | raised f => rfl
    | done l u =>
      simp only [Access.bind_of_done]
      cases busRead _ u with
      | raised f => rfl
      | done h v => simp only [Access.bind_of_done, word_eq_ofNat]

/-! ### The readable and the write-only PPU registers -/

section
variable {a : Addr} {s : State}

theorem ppuRead_status (h : a.toNat % 8 = 2) :
    ppuRead a s = .done s.ppu.status (s.setPpu (statusRead s.params s.ppu)) := by
  simp [ppuRead, h]

theorem ppuRead_oamData (h : a.toNat % 8 = 4) :
    ppuRead a s = .done (Memory.read s.ppu.oam s.ppu.oamAddr.toNat) s := by
  simp [ppuRead, h]

theorem ppuRead_data (h : a.toNat % 8 = 7) :
    ppuRead a s = .done s.ppu.readBuffer (s.setPpu (dataRead s.cart s.ppu)) := by
  simp [ppuRead, h]

theorem ppuRead_writeOnly (h : a.toNat % 8 ∈ ([0, 1, 3, 5, 6] : List Nat)) :
    ppuRead a s = .raised (raise (.writeOnlyRegisterRead a) s) := by
  simp only [List.mem_cons, List.not_mem_nil, or_false] at h
  unfold ppuRead
  split
  · omega
  · omega
  · omega
  · rfl

end

/-- Settles O36: the reads that fault are those of the write-only registers and of the unmapped addresses;
every other address is readable. -/
theorem readsFaultExactlyWhereTheSpecSays : Obligations.ReadsFaultExactlyWhereTheSpecSays := by
  intro a s
  refine ⟨fun ⟨h1, h2, h3⟩ => ?_, fun h => busRead_unmapped h, fun h1 h2 => busRead_of_readable s ?_⟩
  · rw [busRead_ppu h1 (by omega), ppuRead_writeOnly h3]
    rfl
  · simp only [List.mem_cons, List.not_mem_nil, or_false] at h1
    rw [readable_iff]
    omega

/-- Settles O37: each of the cases of a read that completes changes only its own device. -/
theorem readsChangeOnlyDevices : Obligations.ReadsChangeOnlyDevices := by
  intro a v s t h
  rcases busRead_done h with rfl | ⟨h1, h2, h3, rfl⟩ | ⟨h1, h2, h3, rfl⟩ | ⟨rfl, c, n, rfl⟩ | ⟨h1, rfl⟩
  · exact ⟨rfl, fun _ => ⟨rfl, rfl⟩, fun _ => ⟨rfl, rfl⟩, fun _ => ⟨rfl, rfl⟩, fun _ => rfl⟩
  · exact ⟨rfl, fun hn => absurd ⟨h1, by omega, h3⟩ hn, fun _ => ⟨rfl, rfl⟩, fun _ => ⟨rfl, rfl⟩, fun _ => rfl⟩
  · exact ⟨rfl, fun _ => ⟨rfl, rfl⟩, fun hn => absurd ⟨h1, by omega, h3⟩ hn, fun _ => ⟨rfl, rfl⟩, fun _ => rfl⟩
  · exact ⟨rfl, fun _ => ⟨rfl, rfl⟩, fun _ => ⟨rfl, rfl⟩, fun hn => absurd rfl hn, fun _ => rfl⟩
  · exact ⟨rfl, fun _ => ⟨rfl, rfl⟩, fun _ => ⟨rfl, rfl⟩, fun _ => ⟨rfl, rfl⟩, fun _ => by omega⟩

end Sys2Proof.Machine
end

section
/-! The PPU register window and the VRAM behind it (O39, O40, O41). -/

namespace Sys2Proof.Machine

/-! ### Register writes -/

/-- A $2005 write, field by field (R71). -/
theorem scrollWrite_eq (params : Params) (v : Byte) (u : Ppu) :
    scrollWrite params v u =
      let second := if params.scrollSharesToggle then u.addrToggle else u.scrollToggle
      { u with
        scroll0 := if second then u.scroll0 else v
        scroll1 := if second then v else u.scroll1
        addrToggle := if params.scrollSharesToggle then !u.addrToggle else u.addrToggle
        scrollToggle := if params.scrollSharesToggle then u.scrollToggle else !u.scrollToggle } := by
  cases hp : params.scrollSharesToggle with
  | true => cases ht : u.addrToggle <;> simp [scrollWrite, hp, ht]
  | false => cases ht : u.scrollToggle <;> simp [scrollWrite, hp, ht]

/-- A $2006 write, field by field, the halves as numbers (R72). -/
theorem vramAddrWrite_eq (v : Byte) (u : Ppu) :
    vramAddrWrite v u =
      { u with
        vramAddr :=
          if u.addrToggle then BitVec.ofNat 16 (u.vramAddr.toNat / 256 * 256 + v.toNat)
          else BitVec.ofNat 16 (v.toNat * 256 + u.vramAddr.toNat % 256)
        addrToggle := !u.addrToggle } := by
  cases ht : u.addrToggle <;> simp [vramAddrWrite, ht, word_eq_ofNat, toNat_hi, toNat_lo]

/-- Settles O39: each register's write, by its number. -/
theorem ppuRegisterWrites : Obligations.PpuRegisterWrites := by
  intro a v s u h h' shared second hu
  rw [busWrite_ppu h (by omega)]
  simp only [List.mem_cons, List.not_mem_nil, or_false, Prod.mk.injEq] at hu
  rcases hu with ⟨hk, rfl⟩ | ⟨hk, rfl⟩ | ⟨hk, rfl⟩ | ⟨hk, rfl⟩ | ⟨hk, rfl⟩ | ⟨hk, rfl⟩ | ⟨hk, rfl⟩ <;>
    simp only [ppuWrite, hk]
  · rfl
  · rfl
  · rfl
  · rfl
  · rw [scrollWrite_eq]; rfl
  · rw [vramAddrWrite_eq]; rfl

/-! ### The data port -/

theorem ppuWrite_data {a : Addr} {v : Byte} {s : State} (h : a.toNat % 8 = 7) :
    ppuWrite a v s = s.setPpu (dataWrite s.cart v s.ppu) := by
  simp [ppuWrite, h]

/-- The VRAM address after an access of the data port (R76). -/
theorem add_vramInc (u : Ppu) :
    u.vramAddr + vramInc u =
      BitVec.ofNat 16 ((u.vramAddr.toNat + if u.ctrl.getLsbD 2 then 32 else 1) % 65536) := by
  apply BitVec.eq_of_toNat_eq
  cases hb : u.ctrl.getLsbD 2 <;> simp [vramInc, bit, hb, -BitVec.getLsbD_eq_getElem]

/-- Clearing vblank, as a number (R66). -/
theorem and_0x7F (v : Byte) : v &&& 0x7F = BitVec.ofNat 8 (v.toNat % 128) := by
  apply BitVec.eq_of_toNat_eq
  rw [BitVec.toNat_and, BitVec.toNat_ofNat, Nat.mod_eq_of_lt (by omega : v.toNat % 128 < 2 ^ 8)]
  exact Nat.and_two_pow_sub_one_eq_mod v.toNat 7

section
variable {cart : Cartridge} {w x : Addr} {u : Ppu}

/-- A VRAM write changes one of the three arrays, and CHR-RAM only where the cartridge has no CHR-ROM. -/
theorem vramWrite_keeps (cart : Cartridge) (w : Addr) (v : Byte) (u : Ppu) :
    let t := vramWrite cart w v u
    t = { u with nt := t.nt, pal := t.pal, chrRam := t.chrRam } ∧
    (cart.chrBanks ≠ 0 → t.chrRam = u.chrRam) := by
  unfold vramWrite
  cases vramTranslate cart.mirroring w with
  | chr p =>
    by_cases hc : cart.chrBanks = 0 <;> simp [hc]
  | nt i => exact ⟨rfl, fun _ => rfl⟩
  | pal i => exact ⟨rfl, fun _ => rfl⟩

/-- A data write stores, then steps the address it found (R75, R76). -/
theorem dataWrite_eq (cart : Cartridge) (v : Byte) (u : Ppu) :
    dataWrite cart v u = { vramWrite cart u.vramAddr v u with vramAddr := u.vramAddr + vramInc u } := by
  rw [dataWrite, (vramWrite_keeps cart u.vramAddr v u).1]
  rfl

/-- Where CHR-ROM stands a VRAM write has no effect (R80). -/
theorem vramWrite_chrRom {p : Nat} (hw : vramTranslate cart.mirroring w = .chr p) (hc : cart.chrBanks ≠ 0)
    (v : Byte) : vramWrite cart w v u = u := by
  simp [vramWrite, hw, hc]

/-- Elsewhere the byte written is read back. -/
theorem vramRead_vramWrite_same (hw : ∀ p, vramTranslate cart.mirroring w = .chr p → cart.chrBanks = 0)
    (v : Byte) : vramRead cart w (vramWrite cart w v u) = v := by
  unfold vramRead vramWrite
  cases ht : vramTranslate cart.mirroring w with
  | chr p => simp [hw p ht]
  | nt i => simp
  | pal i => simp

/-- A VRAM write leaves every other place alone. -/
theorem vramRead_vramWrite_of_ne (h : vramTranslate cart.mirroring x ≠ vramTranslate cart.mirroring w)
    (v : Byte) : vramRead cart x (vramWrite cart w v u) = vramRead cart x u := by
  unfold vramRead vramWrite
  cases hw : vramTranslate cart.mirroring w with
  | chr p =>
    by_cases hc : cart.chrBanks = 0
    · cases hx : vramTranslate cart.mirroring x with
      | chr q =>
        have hpq : p ≠ q := fun he => h (by rw [hw, hx, he])
        simp [hc, Memory.read_write_of_ne _ _ hpq]
      | nt j => simp [hc]
      | pal j => simp [hc]
    · simp [hc]
  | nt i =>
    cases hx : vramTranslate cart.mirroring x with
    | chr q => rfl
    | nt j => exact Memory.read_write_of_ne _ _ fun he => h (by rw [hw, hx, he])
    | pal j => rfl
  | pal i =>
    cases hx : vramTranslate cart.mirroring x with
    | chr q => rfl
    | nt j => rfl
    | pal j => exact Memory.read_write_of_ne _ _ fun he => h (by rw [hw, hx, he])

end

/-- A VRAM address leads to the pattern region exactly below $2000 (R77). -/
theorem vramTranslate_chr_iff (m : Mirroring) (w : Addr) (p : Nat) :
    vramTranslate m w = .chr p ↔ w.toNat % 0x4000 = p ∧ p < 0x2000 := by
  unfold vramTranslate
  simp only []
  split_ifs with h0 h1
  · simp; omega
  · simp; omega
  · simp; omega

/-- Settles O40: the three reads and the data write, the read-back by the place its address leads to. -/
theorem ppuReadsAndDataWrites : Obligations.PpuReadsAndDataWrites := by
  intro a v s h h' next
  have hnext : s.ppu.vramAddr + vramInc s.ppu = next := add_vramInc s.ppu
  refine ⟨fun hk => ?_, fun hk => ?_, fun hk => ?_, fun hk => ?_⟩
  · rw [busRead_ppu h (by omega), ppuRead_status hk, statusRead, and_0x7F]
    rfl
  · rw [busRead_ppu h (by omega), ppuRead_oamData hk]
  · rw [busRead_ppu h (by omega), ppuRead_data hk, dataRead, hnext]
    rfl
  · obtain ⟨hkeep, hchr⟩ := vramWrite_keeps s.cart s.ppu.vramAddr v s.ppu
    have hstep := dataWrite_eq s.cart v s.ppu
    rw [hnext] at hstep
    refine ⟨s.setPpu (dataWrite s.cart v s.ppu), ?_, ?_, ?_, ?_, fun w hw => ?_⟩
    · rw [busWrite_ppu h (by omega), ppuWrite_data hk]
    · rw [hstep, hkeep]
      rfl
    · rw [hstep]
      exact hchr
    · rw [hstep]
      change vramRead s.cart s.ppu.vramAddr (vramWrite s.cart s.ppu.vramAddr v s.ppu) = _
      split_ifs with hrom
      · rw [vramWrite_chrRom ((vramTranslate_chr_iff ..).2 ⟨rfl, hrom.2⟩) hrom.1]
      · refine vramRead_vramWrite_same (fun p hp => ?_) v
        obtain ⟨rfl, hlt⟩ := (vramTranslate_chr_iff ..).1 hp
        exact not_not.1 fun hc => hrom ⟨hc, hlt⟩
    · rw [hstep]
      exact vramRead_vramWrite_of_ne hw v

/-! ### The map -/

section
variable {m : Mirroring} {w : Addr}

theorem vramTranslate_nt (h : 0x2000 ≤ w.toNat % 0x4000) (h' : w.toNat % 0x4000 < 0x3F00) :
    vramTranslate m w =
      .nt (ntBank m ((w.toNat % 0x4000 - 0x2000) % 0x1000 / 0x400) * 0x400 +
        (w.toNat % 0x4000 - 0x2000) % 0x1000 % 0x400) := by
  unfold vramTranslate
  simp only []
  rw [if_neg (by omega), if_pos h']

theorem vramTranslate_pal (h : 0x3F00 ≤ w.toNat % 0x4000) :
    vramTranslate m w = .pal (palIndex (w.toNat % 0x4000)) := by
  unfold vramTranslate
  simp only []
  rw [if_neg (by omega), if_neg (by omega)]

end

/-- R78's table of the nametables, t = 0..3. -/
theorem ntBank_eq (m : Mirroring) {t : Nat} (h : t < 4) :
    ntBank m t =
      match m with
      | .horizontal => if t < 2 then 0 else 1
      | .vertical => if t = 0 ∨ t = 2 then 0 else 1
      | .fourScreen => t
      | .singleLower => 0
      | .singleUpper => 1 := by
  cases m with
  | horizontal =>
    change t / 2 = if t < 2 then 0 else 1
    split <;> omega
  | vertical =>
    change t % 2 = if t = 0 ∨ t = 2 then 0 else 1
    split <;> omega
  | fourScreen => rfl
  | singleLower => rfl
  | singleUpper => rfl

/-- The palette aliases fold down by $10 (R79). -/
theorem palIndex_eq (p : Nat) :
    palIndex p = if p % 0x20 ∈ palAliases then p % 0x20 - 0x10 else p % 0x20 := by
  simp [palIndex, palAliases]

/-- Settles O41: the place a VRAM address leads to, region by region, and its byte. -/
theorem vramMapByRegion : Obligations.VramMapByRegion := by
  intro cart w u p
  refine ⟨fun h => ?_, fun h h' => ?_, fun h => ?_⟩
  · have ht : vramTranslate cart.mirroring w = .chr p := (vramTranslate_chr_iff ..).2 ⟨rfl, h⟩
    exact ⟨ht, by rw [vramRead, ht]⟩
  · intro t k
    have ht : vramTranslate cart.mirroring w = .nt k := by
      have hoff : (p - 0x2000) % 0x1000 % 0x400 = p % 0x400 := by omega
      rw [vramTranslate_nt h h', hoff]
      exact congrArg (fun b => VramPlace.nt (b * 0x400 + p % 0x400)) (ntBank_eq cart.mirroring (by omega))
    exact ⟨ht, by rw [vramRead, ht]⟩
  · intro k
    have ht : vramTranslate cart.mirroring w = .pal k := by
      rw [vramTranslate_pal h, palIndex_eq]
    exact ⟨ht, by rw [vramRead, ht]⟩

end Sys2Proof.Machine
end

section
/-! Cartridge space: the PRG windows, unmapped addresses and the MMC1 (O46, O47, O48). -/

namespace Sys2Proof.Machine

/-! ### Stored and unmapped bytes -/

/-- Which cartridge addresses no stored byte backs: those below $8000, those of an unsupported mapper, and
those the fixed mapping leaves out (R89, R91, R98). -/
theorem peek_eq_none_iff {a : Addr} {s : State} (h : 0x2000 ≤ a.toNat) :
    peek s a = none ↔
      a.toNat < 0x8000 ∨ (∃ k, s.mapper = .unsupported k) ∨ prgIndex s.cart s.params a = none := by
  unfold peek
  rw [if_neg (by omega)]
  split
  · simp [*]
  · cases hm : s.mapper <;> simp [*]

/-- Where the mapper holds no byte, its read draws. -/
theorem mapperRead_of_unmapped {a : Addr} {s : State}
    (h : (∃ k, s.mapper = .unsupported k) ∨ prgIndex s.cart s.params a = none) : mapperRead a s = draw s := by
  unfold mapperRead prgFixed
  cases hm : s.mapper with
  | unsupported k => rfl
  | nrom => simp [h.resolve_left (by simp [hm])]
  | mmc1 r => simp [h.resolve_left (by simp [hm])]

/-- A read of cartridge space that no stored byte backs is a draw. -/
theorem busRead_of_peek_none {a : Addr} {s : State} (h : 0x4020 ≤ a.toNat) (hp : peek s a = none) :
    busRead a s = .done (Config.draw s.draws) (s.setDraws (s.draws + 1)) := by
  by_cases h8 : a.toNat < 0x8000
  · exact busRead_cartridge h h8
  · have hm := ((peek_eq_none_iff (by omega)).1 hp).resolve_left h8
    rw [busRead_mapper (by omega), mapperRead_of_unmapped hm]
    rfl

/-- Settles O47: no stored byte backs these addresses, and nothing there takes a write. -/
theorem unmappedCartridgeSpaceDraws : Obligations.UnmappedCartridgeSpaceDraws := by
  intro a s h
  refine ⟨busRead_of_peek_none (by omega) ((peek_eq_none_iff (by omega)).2 ?_), fun v => ?_⟩
  · exact h.imp (fun h => by omega) fun h => .inl h.2
  · rcases h with ⟨h, h'⟩ | ⟨h, k, hm⟩
    · exact busWrite_ignored (by omega) (by omega)
    · rw [busWrite_mapper h, mapperWrite, hm]

/-! ### The PRG windows -/

section
variable {a : Addr} {s : State}

/-- A read through the fixed mapping (R91). -/
theorem busRead_of_prgIndex {i : Nat} (h : 0x8000 ≤ a.toNat) (hm : ∀ k, s.mapper ≠ .unsupported k)
    (hi : prgIndex s.cart s.params a = some i) : busRead a s = .done (Memory.read s.cart.prg i) s := by
  rw [busRead_mapper h, mapperRead_of_index hm hi]

/-- $C000-$FFFF of a 16 KiB image. -/
theorem prgIndex_bank16_upper (h : 0xC000 ≤ a.toNat) (hb : s.cart.prgBanks = 1) :
    prgIndex s.cart s.params a = some (a.toNat - 0xC000) := by
  simp [prgIndex, hb, h]

/-- $8000-$BFFF of a 16 KiB image under `NROM16_LOW = mirror`. -/
theorem prgIndex_bank16_mirror (h : a.toNat < 0xC000) (hb : s.cart.prgBanks = 1)
    (hp : s.params.nrom16Low = .mirror) : prgIndex s.cart s.params a = some (a.toNat - 0x8000) := by
  simp [prgIndex, hb, hp, Nat.not_le.mpr h]

/-- $8000-$BFFF of a 16 KiB image under `NROM16_LOW = unmapped`. -/
theorem prgIndex_bank16_unmapped (h : a.toNat < 0xC000) (hb : s.cart.prgBanks = 1)
    (hp : s.params.nrom16Low = .unmapped) : prgIndex s.cart s.params a = none := by
  simp [prgIndex, hb, hp, Nat.not_le.mpr h]

/-- $8000-$BFFF of a larger image. -/
theorem prgIndex_bank32_lower (h : a.toNat < 0xC000) (hb : 2 ≤ s.cart.prgBanks) :
    prgIndex s.cart s.params a = some (a.toNat - 0x8000) := by
  simp [prgIndex, h, show s.cart.prgBanks ≠ 1 by omega]

/-- $C000-$FFFF of a larger image under `NROM32_UPPER = second_half`. -/
theorem prgIndex_bank32_secondHalf (h : 0xC000 ≤ a.toNat) (hb : 2 ≤ s.cart.prgBanks)
    (hp : s.params.nrom32Upper = .secondHalf) :
    prgIndex s.cart s.params a = some (0x4000 + (a.toNat - 0xC000)) := by
  simp [prgIndex, hp, Nat.not_lt.mpr h, show s.cart.prgBanks ≠ 1 by omega]
  omega

/-- $C000-$FFFF of a larger image under `NROM32_UPPER = first_half`. -/
theorem prgIndex_bank32_firstHalf (h : 0xC000 ≤ a.toNat) (hb : 2 ≤ s.cart.prgBanks)
    (hp : s.params.nrom32Upper = .firstHalf) : prgIndex s.cart s.params a = some (a.toNat - 0xC000) := by
  simp [prgIndex, hp, Nat.not_lt.mpr h, show s.cart.prgBanks ≠ 1 by omega]

end

/-- Settles O46: each window reads the byte at its index of the fixed mapping. -/
theorem prgWindowsOfTheFixedMapping : Obligations.PrgWindowsOfTheFixedMapping := by
  intro a s h hm byte
  refine ⟨fun hc hb => busRead_of_prgIndex h hm (prgIndex_bank16_upper hc hb), fun hc hb => ?_,
    fun hc hb => busRead_of_prgIndex h hm (prgIndex_bank32_lower hc hb), fun hc hb => ?_, fun hn v => ?_⟩
  · cases hp : s.params.nrom16Low with
    | mirror => exact busRead_of_prgIndex h hm (prgIndex_bank16_mirror hc hb hp)
    | unmapped =>
      have hi := prgIndex_bank16_unmapped hc hb hp
      exact busRead_of_peek_none (by omega) ((peek_eq_none_iff (by omega)).2 (.inr (.inr hi)))
  · cases hp : s.params.nrom32Upper with
    | secondHalf => exact busRead_of_prgIndex h hm (prgIndex_bank32_secondHalf hc hb hp)
    | firstHalf => exact busRead_of_prgIndex h hm (prgIndex_bank32_firstHalf hc hb hp)
  · rw [busWrite_mapper h, mapperWrite, hn]

/-! ### The MMC1 -/

section
variable {r : Mmc1} {a : Addr} {v : Byte}

/-- A write with bit 7 set (R94). -/
theorem Mmc1.write_reset (h : v.getLsbD 7 = true) :
    r.write a v = { r with shift := 0x10, control := r.control ||| 0x0C } := if_pos h

/-- One serial shift, as numbers: the bit enters at the top (R95). -/
theorem mmc1_shift_in : ∀ (x : BitVec 5) (b : Bool),
    (x >>> 1) ||| (if b then 0x10 else 0) = BitVec.ofNat 5 (b.toNat * 16 + x.toNat / 2) := by decide

/-- The low bit of a byte, as a number. -/
theorem toNat_bit_zero (v : Byte) : (bit v 0).toNat = v.toNat % 2 := by
  rcases Nat.mod_two_eq_zero_or_one v.toNat with h | h <;> simp [bit, BitVec.getLsbD, h]

/-- A serial write shifts; with the marker in bit 0 it is the fifth and latches (R95, R96). -/
theorem Mmc1.write_serial {n m : Nat} (hv : v.getLsbD 7 = false) (hn : n < 32)
    (hm : m = v.toNat % 2 * 16 + n / 2) :
    { r with shift := BitVec.ofNat 5 n }.write a v =
      if n % 2 = 1 then r.latch a (BitVec.ofNat 5 m) else { r with shift := BitVec.ofNat 5 m } := by
  have hb : (BitVec.ofNat 5 n).getLsbD 0 = decide (n % 2 = 1) := by simp [BitVec.getLsbD]
  have hs := mmc1_shift_in (BitVec.ofNat 5 n) (bit v 0)
  rw [toNat_bit_zero, BitVec.toNat_ofNat, Nat.mod_eq_of_lt hn, ← hm] at hs
  simp only [Mmc1.write, bit, hv, hb, Bool.false_eq_true, if_false, decide_eq_true_eq]
  rw [← hs]
  rfl

/-- A serial write before the fifth. -/
theorem Mmc1.write_before_fifth {n m : Nat} (hv : v.getLsbD 7 = false) (hn : n < 32 ∧ n % 2 = 0)
    (hm : m = v.toNat % 2 * 16 + n / 2) :
    { r with shift := BitVec.ofNat 5 n }.write a v = { r with shift := BitVec.ofNat 5 m } :=
  (Mmc1.write_serial hv hn.1 hm).trans (if_neg (by omega))

/-- The fifth serial write. -/
theorem Mmc1.write_fifth {n m : Nat} (hv : v.getLsbD 7 = false) (hn : n < 32 ∧ n % 2 = 1)
    (hm : m = v.toNat % 2 * 16 + n / 2) :
    { r with shift := BitVec.ofNat 5 n }.write a v = r.latch a (BitVec.ofNat 5 m) :=
  (Mmc1.write_serial hv hn.1 hm).trans (if_pos hn.2)

/-- The latch by the address of the write: a quarter of $8000-$FFFF for each register (R93). -/
theorem Mmc1.latch_eq (h : 0x8000 ≤ a.toNat) (r : Mmc1) (x : BitVec 5) :
    r.latch a x =
      { shift := 0x10
        control := if a.toNat < 0xA000 then x else r.control
        chr0 := if 0xA000 ≤ a.toNat ∧ a.toNat < 0xC000 then x else r.chr0
        chr1 := if 0xC000 ≤ a.toNat ∧ a.toNat < 0xE000 then x else r.chr1
        prg := if 0xE000 ≤ a.toNat then x else r.prg } := by
  have ha := a.isLt
  unfold Mmc1.latch
  split
  · rw [if_pos (by omega), if_neg (by omega), if_neg (by omega), if_neg (by omega)]
  · rw [if_neg (by omega), if_pos (by omega), if_neg (by omega), if_neg (by omega)]
  · rw [if_neg (by omega), if_neg (by omega), if_pos (by omega), if_neg (by omega)]
  · rename_i h0 h1 h2
    simp only [imp_false] at h0 h1 h2
    rw [if_neg (by omega), if_neg (by omega), if_neg (by omega), if_pos (by omega)]

end

/-- A bus write of an MMC1 machine at or above $8000 is a write of its registers. -/
theorem busWrite_mmc1 {a : Addr} {v : Byte} {s : State} {r : Mmc1} (hs : s.mapper = .mmc1 r)
    (h : 0x8000 ≤ a.toNat) : busWrite a v s = .done () (s.setMapper (.mmc1 (r.write a v))) := by
  rw [busWrite_mapper h, mapperWrite, hs]

/-- So are several, in order. -/
theorem busWrites_mmc1 {s : State} {r t : Mmc1} (hs : s.mapper = .mmc1 r) {ws : List (Addr × Byte)}
    (h : ∀ w ∈ ws, 0x8000 ≤ w.1.toNat) (ht : ws.foldl (fun r w => r.write w.1 w.2) r = t) :
    busWrites ws s = some (s.setMapper (.mmc1 t)) := by
  induction ws generalizing s r with
  | nil =>
    rw [← show r = t from ht, ← hs]
    rfl
  | cons w rest ih =>
    obtain ⟨hw, hrest⟩ := List.forall_mem_cons.1 h
    rw [busWrites, busWrite_mmc1 hs hw]
    exact ih rfl hrest ht

/-- Settles O48: the five writes one after the other, on the shift register alone. -/
theorem mmc1SerialProtocol : Obligations.Mmc1SerialProtocol := by
  intro a0 a1 a2 a3 a4 v0 v1 v2 v3 v4 s r hs ha up shifted
  simp only [List.forall_mem_cons] at ha ⊢
  obtain ⟨ha0, ha1, ha2, ha3, ha4, -⟩ := ha
  refine ⟨fun h => by rw [busWrite_mmc1 hs ha0, Mmc1.write_reset h], fun ⟨hv0, hv1, hv2, hv3, hv4, _⟩ hr => ?_⟩
  have h1 : r.write a0 v0 = { r with shift := BitVec.ofNat 5 (up v0 4 + 8) } := by
    have hsentinel : r = { r with shift := BitVec.ofNat 5 16 } := by
      rw [show BitVec.ofNat 5 16 = r.shift from hr.symm]
    rw [hsentinel]
    exact Mmc1.write_before_fifth hv0 (by omega) rfl
  have h2 : { r with shift := BitVec.ofNat 5 (up v0 4 + 8) }.write a1 v1 =
      { r with shift := BitVec.ofNat 5 (up v1 4 + up v0 3 + 4) } :=
    Mmc1.write_before_fifth hv1 (by simp only [up]; omega) (by simp only [up]; omega)
  have h3 : { r with shift := BitVec.ofNat 5 (up v1 4 + up v0 3 + 4) }.write a2 v2 =
      { r with shift := BitVec.ofNat 5 (up v2 4 + up v1 3 + up v0 2 + 2) } :=
    Mmc1.write_before_fifth hv2 (by simp only [up]; omega) (by simp only [up]; omega)
  have h4 : { r with shift := BitVec.ofNat 5 (up v2 4 + up v1 3 + up v0 2 + 2) }.write a3 v3 =
      { r with shift := BitVec.ofNat 5 (up v3 4 + up v2 3 + up v1 2 + up v0 1 + 1) } :=
    Mmc1.write_before_fifth hv3 (by simp only [up]; omega) (by simp only [up]; omega)
  have h5 : { r with shift := BitVec.ofNat 5 (up v3 4 + up v2 3 + up v1 2 + up v0 1 + 1) }.write a4 v4 =
      r.latch a4 (BitVec.ofNat 5 (up v4 4 + up v3 3 + up v2 2 + up v1 1 + up v0 0)) :=
    Mmc1.write_fifth hv4 (by simp only [up]; omega) (by simp only [up]; omega)
  exact ⟨busWrites_mmc1 hs (by simp [*]) h1,
    busWrites_mmc1 hs (by simp [*]) (by simp only [List.foldl_cons, List.foldl_nil, h1, h2]),
    busWrites_mmc1 hs (by simp [*]) (by simp only [List.foldl_cons, List.foldl_nil, h1, h2, h3]),
    busWrites_mmc1 hs (by simp [*]) (by simp only [List.foldl_cons, List.foldl_nil, h1, h2, h3, h4]),
    busWrites_mmc1 hs (by simp [*])
      (by simp only [List.foldl_cons, List.foldl_nil, h1, h2, h3, h4, h5, Mmc1.latch_eq ha4])⟩

end Sys2Proof.Machine
end

section
/-! The audio register bank and the controller port (O43, O44, O45). -/

namespace Sys2Proof.Machine

/-! ### The audio register bank -/

/-- Settles O43: a write of the bank is the write of one slot, read back where the slot can be read. -/
theorem apuBankStoresBytes : Obligations.ApuBankStoresBytes := by
  intro a v s n
  refine ⟨fun h h' h14 h16 => ⟨_, busWrite_bank h h' h14 h16, ?_, fun k => ?_, fun hr => ?_⟩,
    fun h h' => busWrite_ignored h (by omega)⟩
  · simp only [apuWrite, beq_eq_decide]
    rfl
  · simp only [apuWrite, State.setApu_apu, Memory.read_write, eq_comm (a := a.toNat)]
    rfl
  · rw [busRead_bank (by omega), apuRead]
    simp [apuWrite]

/-! ### The controller port -/

/-- A bit of a byte as a byte, by arithmetic. -/
theorem ofBit_bit (v : Byte) (i : Nat) : ofBit (bit v i) = BitVec.ofNat 8 (v.toNat / 2 ^ i % 2) := by
  rw [bit, BitVec.getLsbD, Nat.testBit_eq_decide_div_mod_eq]
  rcases Nat.mod_two_eq_zero_or_one (v.toNat / 2 ^ i) with h | h <;> simp [ofBit, h]

section
variable {v : Byte} {s : State}

/-- A write with bit 0 set samples the buttons and raises the strobe (R87). -/
theorem ctlWrite_high (h : v.getLsbD 0 = true) :
    ctlWrite v s = (resample s).setCtl { (resample s).ctl with strobe := true } := if_pos h

/-- The write with bit 0 clear that lowers the strobe latches a sample and resets the cursor (R87). -/
theorem ctlWrite_lower (h : v.getLsbD 0 = false) (hs : s.ctl.strobe = true) :
    ctlWrite v s = (resample s).setCtl { (resample s).ctl with readBit := 0, strobe := false } := by
  simp [ctlWrite, bit, h, hs, -BitVec.getLsbD_eq_getElem]

/-- With the strobe low a write with bit 0 clear does nothing (R87). -/
theorem ctlWrite_low (h : v.getLsbD 0 = false) (hs : s.ctl.strobe = false) : ctlWrite v s = s := by
  simp [ctlWrite, bit, h, hs, -BitVec.getLsbD_eq_getElem]

/-- A read under strobe samples the buttons and returns the first (R88). -/
theorem busRead_controller_strobe (hs : s.ctl.strobe = true) :
    busRead 0x4016 s =
      .done (BitVec.ofNat 8 ((Config.buttons s.buttonDraws).toNat % 2)) (resample s) := by
  rw [busRead_controller, ctlRead_of_strobe hs, ofBit_bit, pow_zero, Nat.div_one]
  rfl

/-- A read without strobe returns the bit at the cursor and moves it (R88). -/
theorem busRead_controller_bit (hs : s.ctl.strobe = false) (h : s.ctl.readBit.val < 8) :
    busRead 0x4016 s =
      .done (BitVec.ofNat 8 (s.ctl.latch.toNat / 2 ^ s.ctl.readBit.val % 2))
        (s.setCtl { s.ctl with readBit := ⟨s.ctl.readBit.val + 1, by omega⟩ }) := by
  rw [busRead_controller, ctlRead_of_bit (by simp [hs]) h, ofBit_bit]

/-- After the eighth bit a read returns 1 (R88). -/
theorem busRead_controller_exhausted (hs : s.ctl.strobe = false) (h : s.ctl.readBit.val = 8) :
    busRead 0x4016 s = .done 1 s := by
  rw [busRead_controller, ctlRead_of_exhausted (by simp [hs]) (by omega)]

end

/-- Settles O44: each access of the port, by the strobe and the cursor. -/
theorem controllerPortAccesses : Obligations.ControllerPortAccesses := by
  intro v s sample
  refine ⟨fun h => ?_, fun h hs => ?_, fun h hs => ?_, fun hs => ?_, fun hs h => busRead_controller_bit hs h,
    fun hs h => busRead_controller_exhausted hs h⟩
  · rw [busWrite_controller, ctlWrite_high h]
    rfl
  · rw [busWrite_controller, ctlWrite_lower h hs]
    rfl
  · rw [busWrite_controller, ctlWrite_low h hs]
  · exact busRead_controller_strobe hs

/-! ### The protocol -/

/-- With the cursor past the last bit every read returns 1. -/
theorem controllerReads_exhausted {s : State} (hs : s.ctl.strobe = false) (h : s.ctl.readBit.val = 8) (n : Nat) :
    controllerReads n s = List.replicate n 1 := by
  induction n with
  | zero => rfl
  | succ n ih => rw [controllerReads, busRead_controller_exhausted hs h, List.replicate_succ, ← ih]

/-- With the cursor at bit `i` the remaining bits of the latch come first. -/
theorem controllerReads_from {s : State} (hs : s.ctl.strobe = false) {i j : Nat} (hi : s.ctl.readBit.val = i)
    (hj : i + j = 8) (n : Nat) :
    controllerReads (j + n) s =
      ((List.range' i j).map fun k => BitVec.ofNat 8 (s.ctl.latch.toNat / 2 ^ k % 2)) ++
        List.replicate n 1 := by
  induction j generalizing s i with
  | zero => simpa using controllerReads_exhausted hs (by omega) n
  | succ j ih =>
    rw [Nat.add_right_comm, controllerReads, busRead_controller_bit hs (by omega)]
    simp only [hi, List.range'_succ, List.map_cons, List.cons_append]
    congr 1
    exact ih (s := s.setCtl { s.ctl with readBit := ⟨i + 1, by omega⟩ }) hs rfl (by omega)

/-- Settles O45: the two writes leave the sampled latch with the cursor at bit 0. -/
theorem controllerReadsButtonsInOrder : Obligations.ControllerReadsButtonsInOrder := by
  intro v1 v0 s n h1 h0
  let raised : State := (resample s).setCtl { (resample s).ctl with strobe := true }
  let lowered : State := (resample raised).setCtl { (resample raised).ctl with readBit := 0, strobe := false }
  have hr : busWrite 0x4016 v1 s = .done () raised := by rw [busWrite_controller, ctlWrite_high h1]
  have hl : busWrite 0x4016 v0 raised = .done () lowered := by rw [busWrite_controller, ctlWrite_lower h0 rfl]
  refine ⟨lowered, by simp only [busWrites, hr, hl], ?_⟩
  rw [List.range_eq_range']
  exact controllerReads_from (s := lowered) rfl rfl rfl n

end Sys2Proof.Machine
end

section
/-! The OAM DMA (O42): what the first copies of a page have done, and where it ends. -/

namespace Sys2Proof.Machine

/-- `s` after `j` copies of a DMA: OAM is `oam`, and each copy has taken `d` draws. -/
def State.afterCopies (s : State) (d j : Nat) (oam : Memory) : State :=
  { s with ppu := { s.ppu with oam := oam }, draws := s.draws + d * j }

/-- The first `n` copies of a page whose reads return `b` and take `d` draws each: they lead to
`afterCopies`, with the bytes in OAM from index 0, and the rest of the copies to do. -/
theorem dmaCopy_first {page : Byte} {s : State} {d n : Nat} {b : Nat → Byte} (hn : n ≤ 256)
    (hread : ∀ j < n, ∀ oam, busRead (word page (BitVec.ofNat 8 j)) (s.afterCopies d j oam) =
      .done (b j) (s.afterCopies d (j + 1) oam)) :
    ∃ oam, dmaCopy page 256 s = dmaCopy page (256 - n) (s.afterCopies d n oam) ∧
      ∀ k, Memory.read oam k = if k < n then b k else Memory.read s.ppu.oam k := by
  induction n with
  | zero => exact ⟨s.ppu.oam, rfl, fun k => by simp⟩
  | succ n ih =>
    obtain ⟨oam, hcopy, hoam⟩ := ih (by omega) fun j hj => hread j (by omega)
    have hleft : 256 - n = 256 - (n + 1) + 1 := by omega
    have hindex : 255 - (256 - (n + 1)) = n := by omega
    refine ⟨Memory.write oam n (b n), ?_, fun k => ?_⟩
    · rw [hcopy, hleft, dmaCopy_succ, hindex, hread n (by omega)]
      rfl
    · rw [Memory.read_write, hoam]
      by_cases hk : k = n
      · rw [if_pos hk.symm, if_pos (by omega), hk]
      · simp only [Ne.symm hk, if_false, show k < n + 1 ↔ k < n by omega]

/-- The address of byte `k` of a page. -/
theorem word_ofNat (page : Byte) {k : Nat} (hk : k < 256) :
    word page (BitVec.ofNat 8 k) = BitVec.ofNat 16 (page.toNat * 256 + k) := by
  rw [word_eq_ofNat, BitVec.toNat_ofNat, Nat.mod_eq_of_lt (by omega)]

/-- A DMA whose page is read as `dmaCopy_first` says completes, with the stall armed. -/
theorem busWrite_dma_of_reads {page : Byte} {s : State} {d : Nat} {b : Nat → Byte}
    (hread : ∀ j < 256, ∀ oam, busRead (BitVec.ofNat 16 (page.toNat * 256 + j)) (s.afterCopies d j oam) =
      .done (b j) (s.afterCopies d (j + 1) oam)) :
    ∃ oam, busWrite 0x4014 page s = .done () ((s.afterCopies d 256 oam).setExtraCycles 513) ∧
      ∀ k, Memory.read oam k = if k < 256 then b k else Memory.read s.ppu.oam k := by
  obtain ⟨oam, hcopy, hoam⟩ := dmaCopy_first (le_refl 256) fun j hj => word_ofNat page hj ▸ hread j hj
  refine ⟨oam, ?_, hoam⟩
  rw [busWrite_dma, oamDma, hcopy]
  rfl

/-- What a page's bytes are does not depend on the copies made. -/
theorem peek_afterCopies (s : State) (d j : Nat) (oam : Memory) (a : Addr) :
    peek (s.afterCopies d j oam) a = peek s a := rfl

/-- Copies that take no draws differ only in OAM. -/
theorem afterCopies_zero (s : State) (j : Nat) (oam : Memory) :
    s.afterCopies 0 j oam = s.setPpu { s.ppu with oam := oam } := by
  simp [State.afterCopies, State.setPpu]

/-- The number of an address in a page. -/
theorem toNat_source (page : Byte) {k : Nat} (hk : k < 256) :
    (BitVec.ofNat 16 (page.toNat * 256 + k)).toNat = page.toNat * 256 + k := by
  have := page.isLt
  rw [BitVec.toNat_ofNat, Nat.mod_eq_of_lt (by omega)]

/-- A DMA from a page of stored bytes. -/
theorem busWrite_dma_stored {page : Byte} {s : State} {b : Nat → Byte}
    (h : ∀ k, k < 256 → peek s (BitVec.ofNat 16 (page.toNat * 256 + k)) = some (b k)) :
    ∃ oam, busWrite 0x4014 page s = .done () ((s.setPpu { s.ppu with oam := oam }).setExtraCycles 513) ∧
      ∀ k, Memory.read oam k = if k < 256 then b k else Memory.read s.ppu.oam k := by
  obtain ⟨oam, hw, hoam⟩ := busWrite_dma_of_reads (d := 0) fun j hj oam => by
    rw [busRead_of_peek ((peek_afterCopies s 0 j oam _).trans (h j hj)), afterCopies_zero, afterCopies_zero]
  rw [afterCopies_zero] at hw
  exact ⟨oam, hw, hoam⟩

/-- A DMA from an unmapped page of cartridge space. -/
theorem busWrite_dma_unmapped {page : Byte} {s : State} (hpage : 0x40 < page.toNat)
    (h : ∀ k, k < 256 → peek s (BitVec.ofNat 16 (page.toNat * 256 + k)) = none) :
    ∃ oam, busWrite 0x4014 page s = .done () ((s.afterCopies 1 256 oam).setExtraCycles 513) ∧
      ∀ k, Memory.read oam k = if k < 256 then Config.draw (s.draws + k) else Memory.read s.ppu.oam k := by
  refine busWrite_dma_of_reads (d := 1) (b := fun j => Config.draw (s.draws + j)) fun j hj oam => ?_
  rw [busRead_of_peek_none (by rw [toNat_source page hj]; omega) ((peek_afterCopies s 1 j oam _).trans (h j hj))]
  simp [State.afterCopies, State.setDraws, Nat.add_assoc]

/-- A DMA from a PPU page: register 0 cannot be read. -/
theorem busWrite_dma_ppu {page : Byte} {s : State} (h : 0x20 ≤ page.toNat) (h' : page.toNat < 0x40) :
    busWrite 0x4014 page s =
      .raised (raise (.writeOnlyRegisterRead (BitVec.ofNat 16 (page.toNat * 256 + 0))) s) := by
  have ha := toNat_source page (k := 0) (by decide)
  have hreg : (BitVec.ofNat 16 (page.toNat * 256 + 0)).toNat % 8 = 0 := by omega
  have hread : busRead (word page (BitVec.ofNat 8 0)) s =
      .raised (raise (.writeOnlyRegisterRead (BitVec.ofNat 16 (page.toNat * 256 + 0))) s) := by
    rw [word_ofNat page (by decide), busRead_ppu (by omega) (by omega), ppuRead_writeOnly (by rw [hreg]; decide)]
  rw [busWrite_dma, oamDma, dmaCopy_succ, hread]
  rfl

/-- A DMA from page $40: the sixteen readable slots are copied, and $4010 faults. -/
theorem busWrite_dma_page40 (s : State) :
    ∃ oam, busWrite 0x4014 0x40 s =
        .raised (raise (.unmappedIoRead 0x4010) (s.setPpu { s.ppu with oam := oam })) ∧
      ∀ k, Memory.read oam k =
        if k < 16 then Memory.read s.apu.bank (0x4000 + k) else Memory.read s.ppu.oam k := by
  obtain ⟨oam, hcopy, hoam⟩ := dmaCopy_first (page := 0x40) (s := s) (d := 0) (n := 16)
    (b := fun k => Memory.read s.apu.bank (0x4000 + k)) (by decide) fun j hj oam => by
      have ha := toNat_source 0x40 (k := j) (by omega)
      change _ = 0x4000 + j at ha
      rw [word_ofNat 0x40 (by omega), busRead_bank (by omega), apuRead, ha, afterCopies_zero, afterCopies_zero]
      rfl
  refine ⟨oam, ?_, hoam⟩
  rw [busWrite_dma, oamDma, hcopy, dmaCopy_succ, word_ofNat 0x40 (by decide), busRead_unmapped (by decide),
    afterCopies_zero]
  rfl

/-- Settles O42: each kind of page. -/
theorem oamDmaCopiesThePage : Obligations.OamDmaCopiesThePage := by
  intro page s source
  refine ⟨fun h => ?_, fun hpage h => ?_, fun h h' => busWrite_dma_ppu h h', ?_⟩
  · have hb : ∀ k, k < 256 → peek s (source k) = some ((peek s (source k)).getD 0) := fun k hk =>
      (Option.getD_of_ne_none (Option.isSome_iff_ne_none.1 (h k hk)) 0).symm
    obtain ⟨oam, hw, hoam⟩ := busWrite_dma_stored hb
    exact ⟨_, hw, rfl, fun k hk => (hb k hk).trans (congrArg some ((hoam k).trans (if_pos hk)).symm),
      fun k hk => (hoam k).trans (if_neg (by omega))⟩
  · obtain ⟨oam, hw, hoam⟩ := busWrite_dma_unmapped hpage h
    exact ⟨_, hw, rfl, fun k hk => (hoam k).trans (if_pos hk), fun k hk => (hoam k).trans (if_neg (by omega))⟩
  · rintro rfl
    obtain ⟨oam, hw, hoam⟩ := busWrite_dma_page40 s
    exact ⟨_, hw, rfl, hoam⟩

end Sys2Proof.Machine
end

section
/-! Encoding and decoding (O1, O2, O3, O4): the dispatch entry of an opcode makes an instruction of operand
bytes exactly when the opcode and those bytes are the instruction's encoding. -/

namespace Sys2Proof

/-- The entry makes the instruction of exactly these operand bytes (R120, R124). -/
inductive Entry.Makes : Entry → Instr → List Byte → Prop
  | f1 (i : Instr) : Makes (.f1 i) i []
  | f2 (make : Byte → Instr) (b : Byte) : Makes (.f2 make) (make b) [b]
  | f3 (make : Addr → Instr) (w : Addr) : Makes (.f3 make) (make w) [lo w, hi w]
  | skip2 (make : Byte → Instr) (b : Byte) : Makes (.skip2 make) (make b) [b]
  | skip3 (make : Addr → Instr) (w : Addr) : Makes (.skip3 make) (make w) [lo w, hi w]

/-! ### The decoder, by what an entry makes -/

/-- An entry assembles an instruction from the operand bytes it makes it of, and leaves the others. -/
theorem Entry.assemble_iff {e : Entry} {opcode : Byte} {bytes rest : List Byte} {i : Instr} :
    e.assemble opcode bytes = .ok (i, rest) ↔ ∃ operand, e.Makes i operand ∧ bytes = operand ++ rest := by
  constructor
  · intro h
    unfold Entry.assemble at h
    split at h <;> cases h
    · exact ⟨_, .f1 i, rfl⟩
    · exact ⟨_, .f2 _ _, rfl⟩
    · exact ⟨_, .skip2 _ _, rfl⟩
    · exact ⟨_, .f3 _ _, by simp⟩
    · exact ⟨_, .skip3 _ _, by simp⟩
  · rintro ⟨operand, hm, rfl⟩
    cases hm with
    | f1 => rfl
    | f2 _ _ => rfl
    | f3 _ _ => simp [Entry.assemble]
    | skip2 _ _ => rfl
    | skip3 _ _ => simp [Entry.assemble]

/-- What decodes is an opcode with an entry, and operand bytes the entry makes the instruction of. -/
theorem decode_ok_iff {bytes rest : List Byte} {i : Instr} :
    decode bytes = .ok (i, rest) ↔
      ∃ opcode e operand, dispatch opcode = some e ∧ e.Makes i operand ∧ bytes = opcode :: (operand ++ rest) := by
  cases bytes with
  | nil => simp [decode]
  | cons opcode bytes =>
    cases hd : dispatch opcode with
    | none => simp [decode, hd]
    | some e => simp [decode, hd, Entry.assemble_iff]

/-- Only the lack of an entry rejects an opcode as unimplemented (R141). -/
theorem decode_unimplemented_iff (opcode : Byte) (rest : List Byte) :
    decode (opcode :: rest) = .error (.unimplementedOpcode opcode) ↔ dispatch opcode = none := by
  cases hd : dispatch opcode with
  | none => simp [decode, hd]
  | some e =>
    simp only [decode, hd, reduceCtorEq, iff_false]
    unfold Entry.assemble
    split <;> simp

/-! ### The opcode map and the opcode table agree -/

/-- The dispatch entry of an instruction's opcode, by the instruction's format (R120): it makes the
instruction of its operand bytes, and a NOP* runs alike whatever those bytes (R243). -/
inductive EntryShape (i : Instr) : Prop
  | f1 (hd : dispatch i.info.opcode = some (.f1 i)) (ho : i.info.operand = [])
  | f2 (make : Byte → Instr) (b : Byte) (hm : make b = i) (hd : dispatch i.info.opcode = some (.f2 make))
      (ho : i.info.operand = [b]) (hn : i.info.mnemonic ≠ .nopStar)
  | f3 (make : Addr → Instr) (w : Addr) (hm : make w = i) (hd : dispatch i.info.opcode = some (.f3 make))
      (ho : i.info.operand = [lo w, hi w]) (hn : i.info.mnemonic ≠ .nopStar)
  | skip2 (make : Byte → Instr) (b : Byte) (hm : make b = i) (hd : dispatch i.info.opcode = some (.skip2 make))
      (ho : i.info.operand = [b]) (hn : i.info.mnemonic = .nopStar)
      (hx : ∀ c s, Machine.execute (make c) s = Machine.execute i s)
  | skip3 (make : Addr → Instr) (w : Addr) (hm : make w = i) (hd : dispatch i.info.opcode = some (.skip3 make))
      (ho : i.info.operand = [lo w, hi w]) (hn : i.info.mnemonic = .nopStar)
      (hx : ∀ c s, Machine.execute (make c) s = Machine.execute i s)

/-- Every row of the opcode table has the entry of its format in the opcode map (R139). -/
theorem entryShape (i : Instr) : EntryShape i := by
  cases i with
  | tax | tay | txa | tya | tsx | txs | inx | iny | dex | dey | aslA | lsrA | rolA | rorA | rts | rti
  | pha | php | pla | plp | clc | sec | cli | sei | clv | cld | sed | nop
  | nopU1A | nopU3A | nopU5A | nopU7A | nopUDA | nopUFA =>
    exact .f1 rfl rfl
  | ldaImm b | ldaZp b | ldaZpX b | ldaIndX b | ldaIndY b | ldxImm b | ldxZp b | ldxZpY b | ldyImm b
  | ldyZp b | ldyZpX b | staZp b | staZpX b | staIndX b | staIndY b | stxZp b | stxZpY b | styZp b
  | styZpX b | adcImm b | adcZp b | adcZpX b | adcIndX b | adcIndY b | sbcImm b | sbcZp b | sbcZpX b
  | sbcIndX b | sbcIndY b | andImm b | andZp b | andZpX b | andIndX b | andIndY b | oraImm b | oraZp b
  | oraZpX b | oraIndX b | oraIndY b | eorImm b | eorZp b | eorZpX b | eorIndX b | eorIndY b | cmpImm b
  | cmpZp b | cmpZpX b | cmpIndX b | cmpIndY b | cpxImm b | cpxZp b | cpyImm b | cpyZp b | bitZp b
  | incZp b | incZpX b | decZp b | decZpX b | aslZp b | aslZpX b | lsrZp b | lsrZpX b | rolZp b
  | rolZpX b | rorZp b | rorZpX b | bpl b | bmi b | bvc b | bvs b | bcc b | bcs b | bne b | beq b =>
    exact .f2 _ b rfl (by dsimp only [Instr.info]; rfl) rfl nofun
  | ldaAbs w | ldaAbsX w | ldaAbsY w | ldxAbs w | ldxAbsY w | ldyAbs w | ldyAbsX w | staAbs w | staAbsX w
  | staAbsY w | stxAbs w | styAbs w | adcAbs w | adcAbsX w | adcAbsY w | sbcAbs w | sbcAbsX w | sbcAbsY w
  | andAbs w | andAbsX w | andAbsY w | oraAbs w | oraAbsX w | oraAbsY w | eorAbs w | eorAbsX w | eorAbsY w
  | cmpAbs w | cmpAbsX w | cmpAbsY w | cpxAbs w | cpyAbs w | bitAbs w | incAbs w | incAbsX w | decAbs w
  | decAbsX w | aslAbs w | aslAbsX w | lsrAbs w | lsrAbsX w | rolAbs w | rolAbsX w | rorAbs w | rorAbsX w
  | jmpAbs w | jmpInd w | jsr w =>
    exact .f3 _ w rfl (by dsimp only [Instr.info]; rfl) rfl nofun
  | nopU80 b | nopU82 b | nopU89 b | nopUC2 b | nopUE2 b | nopU04 b | nopU44 b | nopU64 b | nopU14 b
  | nopU34 b | nopU54 b | nopU74 b | nopUD4 b | nopUF4 b =>
    exact .skip2 _ b rfl (by dsimp only [Instr.info]; rfl) rfl rfl fun _ _ => rfl
  | nopU0C w | nopU1C w | nopU3C w | nopU5C w | nopU7C w | nopUDC w | nopUFC w =>
    exact .skip3 _ w rfl (by dsimp only [Instr.info]; rfl) rfl rfl fun _ _ => rfl

/-- The opcode of every instruction has an entry, which makes it of its operand bytes. -/
theorem Instr.exists_entry_makes (i : Instr) :
    ∃ e, dispatch i.info.opcode = some e ∧ e.Makes i i.info.operand := by
  cases entryShape i with
  | f1 hd ho => exact ⟨_, hd, ho ▸ .f1 i⟩
  | f2 make b hm hd ho _ => exact ⟨_, hd, ho ▸ hm ▸ .f2 make b⟩
  | f3 make w hm hd ho _ => exact ⟨_, hd, by rw [ho, ← hm]; exact .f3 make w⟩
  | skip2 make b hm hd ho _ _ => exact ⟨_, hd, ho ▸ hm ▸ .skip2 make b⟩
  | skip3 make w hm hd ho _ _ => exact ⟨_, hd, by rw [ho, ← hm]; exact .skip3 make w⟩

/-- What an entry of the opcode map makes has that opcode and those operand bytes in the opcode table: for
each opcode, its entry if it has one, and whatever that entry makes (R139). -/
theorem encode_of_makes {opcode : Byte} {e : Entry} {i : Instr} {operand : List Byte}
    (hd : dispatch opcode = some e) (hm : e.Makes i operand) : encode i = opcode :: operand := by
  obtain ⟨n, hn, rfl⟩ : ∃ n, n < 256 ∧ opcode = BitVec.ofNat 8 n := ⟨opcode.toNat, opcode.isLt, by simp⟩
  interval_cases n <;> cases hd <;> cases hm <;> rfl

/-- Settles O2: the opcode's entry makes the instruction of its operand bytes. -/
theorem decodeOfEncodeIsTheInstruction : Obligations.DecodeOfEncodeIsTheInstruction := by
  intro i rest
  obtain ⟨e, hd, hm⟩ := i.exists_entry_makes
  exact decode_ok_iff.2 ⟨i.info.opcode, e, i.info.operand, hd, hm, rfl⟩

/-- Settles O3: what the opcode's entry makes has those bytes as its encoding. -/
theorem decodedBytesAreTheEncoding : Obligations.DecodedBytesAreTheEncoding := by
  intro bytes rest i h
  obtain ⟨opcode, e, operand, hd, hm, rfl⟩ := decode_ok_iff.1 h
  rw [encode_of_makes hd hm]
  rfl

/-- Settles O4: the opcodes without an entry, read off the opcode map. -/
theorem unlistedOpcodesAreRejected : Obligations.UnlistedOpcodesAreRejected := by
  intro opcode rest
  rw [decode_unimplemented_iff]
  constructor
  · revert opcode
    decide
  · exact (List.forall_iff_forall_mem.1 (by decide) : ∀ o ∈ _, dispatch o = none) opcode

/-- The encoding alone decodes with nothing left over. -/
theorem decode_encode (i : Instr) : decode (encode i) = .ok (i, []) :=
  List.append_nil (encode i) ▸ decodeOfEncodeIsTheInstruction i []

/-- Settles O1: each word is the encoding of its instruction. -/
theorem wordsOfEveryFamilyDecode : Obligations.WordsOfEveryFamilyDecode :=
  ⟨decode_encode (.ldaImm 0x05), decode_encode (.staAbs 0x0010), decode_encode (.ldxZpY 0xFF),
    decode_encode .tax, decode_encode (.adcImm 0x03), decode_encode (.cmpIndX 0x20),
    decode_encode (.bitAbs 0x2002), decode_encode (.incAbsX 0x1234), decode_encode .rorA,
    decode_encode (.bne 0xFB), decode_encode (.jmpInd 0x02FF), decode_encode (.jsr 0xD000),
    decode_encode .rti, decode_encode .php, decode_encode .sed, decode_encode (.nopU1C 0x2000)⟩

end Sys2Proof
end

section
/-! Fetching through the bus, and that nothing is refused (O6, O8). -/

namespace Sys2Proof.Machine

/-! ### The fetch -/

/-- An admitted opcode has the entry of the opcode map (R140, R141). -/
theorem entryOf_of_wellFormed {params : Params} {i : Instr} (h : i.wellFormed params = true) :
    entryOf params i.info.opcode = dispatch i.info.opcode := if_pos h

section
variable {s u : State} {opcode : Byte} {e : Entry}

/-- A step whose opcode read faults (R121). -/
theorem cpuStep_of_opcode_raised {f : Fault} (h : s.cyclesRemaining = 0)
    (hr : busRead (takeNmi s).pc (takeNmi s) = .raised f) : cpuStep s = .fault f := by
  rw [cpuStep_boundary h, fetch, hr]
  rfl

/-- A step whose opcode has an entry reads the operand with PC at its first byte (R121, R124). -/
theorem cpuStep_of_entry (h : s.cyclesRemaining = 0)
    (hr : busRead (takeNmi s).pc (takeNmi s) = .done opcode u) (he : entryOf u.params opcode = some e) :
    cpuStep s = (fetchOperand e { u with pc := (takeNmi s).pc + 1 }).andThen execute := by
  have hpc : u.pc = (takeNmi s).pc := by rw [busRead_keeps hr]
  rw [cpuStep_boundary h, fetch, hr, ← hpc]
  simp only [Access.bind_of_done, State.setPc_params, he]
  rfl

end

/-- The encoding of an instruction is one byte longer than its operand. -/
theorem length_encode (i : Instr) : (encode i).length = i.info.operand.length + 1 := rfl

/-- Settles O6: the entry of the opcode reads what its format asks for, and makes the instruction of it. -/
theorem operandsAreFetchedThroughTheBus : Obligations.OperandsAreFetchedThroughTheBus := by
  intro s h n
  refine ⟨fun f hf => cpuStep_of_opcode_raised h hf, ?_⟩
  intro i u hr hw v
  have step {e : Entry} (hd : dispatch i.info.opcode = some e) : cpuStep s = (fetchOperand e v).andThen execute :=
    cpuStep_of_entry h hr ((entryOf_of_wellFormed hw).trans hd)
  rw [length_encode]
  cases entryShape i with
  | f1 hd ho =>
    rw [ho]
    exact ⟨fun _ => step hd, nofun, nofun⟩
  | f2 make b _ hd ho hn =>
    rw [ho]
    refine ⟨fun hx => absurd (hx.resolve_left nofun) hn, fun _ _ => ?_, nofun⟩
    cases hb : busRead v.pc v with
    | raised f => simp [step hd, fetchOperand, hb]
    | done c w => exact ⟨make c, encode_of_makes hd (.f2 make c), by simp [step hd, fetchOperand, hb]⟩
  | f3 make w _ hd ho hn =>
    rw [ho]
    refine ⟨fun hx => absurd (hx.resolve_left nofun) hn, nofun, fun _ _ => ?_⟩
    cases hb : busRead16 v.pc v with
    | raised f => simp [step hd, fetchOperand, hb]
    | done a x => exact ⟨make a, encode_of_makes hd (.f3 make a), by simp [step hd, fetchOperand, hb]⟩
  | skip2 make b _ hd _ hn hx =>
    exact ⟨fun _ => (step hd).trans (hx 0 v), fun _ h => absurd hn h, fun _ h => absurd hn h⟩
  | skip3 make w _ hd _ hn hx =>
    exact ⟨fun _ => (step hd).trans (hx 0 v), fun _ h => absurd hn h, fun _ h => absurd hn h⟩

/-! ### No refusals -/

/-- An access ends in a fault or goes on: what follows it alone could refuse. -/
theorem Access.andThen_ne_refused {α : Type} {r : Access α} {k : α → State → Outcome} {e : Refusal}
    (hk : ∀ v s, k v s ≠ .refused e) : r.andThen k ≠ .refused e := by
  cases r with
  | done v s => exact hk v s
  | raised f => nofun

/-- The last part of an access's instruction, when it only updates the state. -/
theorem Access.andThen_next_ne_refused {α : Type} (r : Access α) (k : α → State → State) (e : Refusal) :
    r.andThen (fun v s => .next (k v s)) ≠ .refused e :=
  Access.andThen_ne_refused fun _ _ => nofun

/-- No meaning is a refusal: each shape ends in a next state or in an access's fault. -/
theorem exec_ne_refused (i : Instr) (s : State) (e : Refusal) : exec i s ≠ .refused e := by
  cases exec_shape i s with
  | load r o _ h => exact h ▸ Access.andThen_next_ne_refused _ _ e
  | store r o _ h => exact h ▸ Access.andThen_next_ne_refused _ _ e
  | accumulate f o _ h => exact h ▸ Access.andThen_next_ne_refused _ _ e
  | testFlags f r o _ h => exact h ▸ Access.andThen_next_ne_refused _ _ e
  | modify f o _ h => exact h ▸ Access.andThen_ne_refused fun _ _ => Access.andThen_next_ne_refused _ _ e
  | registers t h _ => rw [h]; nofun
  | push v h => rw [h]; nofun
  | jsr w h => subst h; nofun
  | jmpIndirect w h =>
    subst h
    exact Access.andThen_ne_refused fun _ _ => Access.andThen_next_ne_refused _ _ e

theorem execute_ne_refused (i : Instr) (s : State) (e : Refusal) : execute i s ≠ .refused e := by
  unfold execute
  split
  · nofun
  · nofun
  · exact absurd ‹_› (exec_ne_refused i s _)

theorem cpuStep_ne_refused (s : State) (e : Refusal) : cpuStep s ≠ .refused e := by
  unfold cpuStep
  split
  · nofun
  · exact Access.andThen_ne_refused fun i u => execute_ne_refused i u e

theorem cpuTick_ne_refused (s : State) (e : Refusal) : cpuTick s ≠ .refused e := by
  unfold cpuTick
  split
  · nofun
  · nofun
  · exact absurd ‹_› (cpuStep_ne_refused s _)

theorem tick_ne_refused (s : State) (e : Refusal) : tick s ≠ .refused e := by
  by_cases hh : s.halted = none
  · by_cases hk : s.tick % 3 = 0
    · rw [tick_cpu hh hk]
      exact cpuTick_ne_refused _ e
    · rw [tick_between hh hk]
      nofun
  · rw [tick_halted hh]
    nofun

/-- Settles O8: the shapes of the meanings, and the step that runs one of them. -/
theorem nothingIsRefused : Obligations.NothingIsRefused := ⟨exec_ne_refused, tick_ne_refused⟩

end Sys2Proof.Machine
end

section
/-! The addressing modes (O9): operand bytes, steps and effective addresses. -/

namespace Sys2Proof.Machine

/-! ### Operand bytes -/

/-- How far an instruction's operand reaches is fixed by its mode (R120, R122). -/
theorem operandBytes_eq_modeBytes (i : Instr) :
    operandBytes i = BitVec.ofNat 16 (Laws.EncodingLength.modeBytes i.info.mode) := by
  cases i <;> rfl

/-- The resolver steps over an operand's bytes, in every mode but Relative (R122). -/
theorem Operand.step_of_ofMode {m : AddrMode} {bytes : List Byte} {o : Operand}
    (ho : Operand.ofMode m bytes = some o) (hm : m ≠ .relative) : o.step = BitVec.ofNat 16 bytes.length := by
  unfold Operand.ofMode at ho
  split at ho <;> cases ho
  on_goal 11 => exact absurd rfl hm
  all_goals rfl

/-- The closing step of an instruction moves PC past its operand bytes, in every mode but Relative (R122). -/
theorem step_eq_operandBytes {i : Instr} {o : Operand} (ho : i.operand = some o)
    (hm : i.info.mode ≠ .relative) : o.step = operandBytes i := Operand.step_of_ofMode ho hm

/-- An operand with an effective address is neither Accumulator's nor Relative's (R125, R135). -/
theorem Operand.mode_of_memory {m : AddrMode} {bytes : List Byte} {o : Operand} {s : State} {ea : Addr}
    (ho : Operand.ofMode m bytes = some o) (hp : place o s = .memory ea) :
    m ≠ .accumulator ∧ m ≠ .relative := by
  constructor
  · rintro rfl
    cases bytes <;> cases ho
    cases hp
  · rintro rfl
    rcases bytes with _ | ⟨d, _ | ⟨e, rest⟩⟩ <;> cases ho
    cases hp

/-! ### Addresses as numbers -/

section
variable (s : State) (b x : Byte) (w : Addr)

theorem zext_eq_ofNat : zext b = BitVec.ofNat 16 b.toNat := by
  rw [← toNat_zext, BitVec.ofNat_toNat, BitVec.setWidth_eq]

/-- An indexed zero-page address wraps in page 0 (R128, R129). -/
theorem zext_add : zext (b + x) = BitVec.ofNat 16 ((b.toNat + x.toNat) % 256) := by
  rw [zext_eq_ofNat, BitVec.toNat_add]

/-- An indexed absolute address wraps modulo 65536 (R131, R132). -/
theorem add_zext : w + zext x = BitVec.ofNat 16 ((w.toNat + x.toNat) % 65536) := by
  apply BitVec.eq_of_toNat_eq
  rw [BitVec.toNat_add, toNat_zext, BitVec.toNat_ofNat, Nat.mod_mod]

/-- A byte of page 0 is the RAM cell of its number. -/
theorem ramRead_zext : ramRead (zext b) s = Memory.read s.ram b.toNat := by
  have := b.isLt
  rw [ramRead, ramIndex, toNat_zext, Nat.mod_eq_of_lt (by omega)]

/-- The byte after a byte of page 0, with the carry into page 1. -/
theorem ramRead_zext_add_one : ramRead (zext b + 1) s = Memory.read s.ram (b.toNat + 1) := by
  have := b.isLt
  rw [ramRead, ramIndex, toNat_zext_add_one, Nat.mod_eq_of_lt (by omega)]

/-- The index of the high byte of a zero-page pointer at `p` (R133). -/
def pointerHigh (z : ZpPointerWrap) (p : Nat) : Nat :=
  match z with
  | .wrap => (p + 1) % 256
  | .none => p + 1

/-- A zero-page pointer by the cells it is read from (R133). -/
theorem zpPointer_eq_ofNat :
    zpPointer b s = BitVec.ofNat 16
      ((Memory.read s.ram (pointerHigh s.params.zpPointerWrap b.toNat)).toNat * 256 +
        (Memory.read s.ram b.toNat).toNat) := by
  cases hw : s.params.zpPointerWrap with
  | wrap =>
    simp only [zpPointer, hw, word_eq_ofNat, ramRead_zext, BitVec.toNat_add]
    rfl
  | none => simp only [zpPointer, hw, word_eq_ofNat, ramRead_zext, ramRead_zext_add_one, pointerHigh]

/-- The indexed indirect address: the pointer at the wrapped sum (R133). -/
theorem zpPointer_add :
    zpPointer (b + x) s = BitVec.ofNat 16
      ((Memory.read s.ram
          (pointerHigh s.params.zpPointerWrap ((b.toNat + x.toNat) % 256))).toNat * 256 +
        (Memory.read s.ram ((b.toNat + x.toNat) % 256)).toNat) := by
  rw [zpPointer_eq_ofNat, BitVec.toNat_add]

/-- An indexed address modulo 65536, its base as a number (R134). -/
theorem ofNat_add_zext (n : Nat) :
    BitVec.ofNat 16 n + zext x = BitVec.ofNat 16 ((n + x.toNat) % 65536) := by
  rw [add_zext, BitVec.toNat_ofNat, Nat.mod_add_mod]

end

/-- Settles O9: the operand bytes by the mode, and each mode's place, read and write. -/
theorem effectiveAddressesOfTheModes : Obligations.EffectiveAddressesOfTheModes := by
  refine ⟨fun i => ?_, fun opcode b v w s => ?_⟩
  · rw [operandBytes_eq_modeBytes]
    cases i.info.mode <;> rfl
  · have hindY : zpPointer b s + zext s.y = _ :=
      (congrArg (· + zext s.y) (zpPointer_eq_ofNat s b)).trans (ofNat_add_zext s.y _)
    exact ⟨rfl, rfl, congrArg Place.memory (zext_eq_ofNat b), congrArg Place.memory (zext_add b s.x),
      congrArg Place.memory (zext_add b s.y), rfl, congrArg Place.memory (add_zext s.x w),
      congrArg Place.memory (add_zext s.y w), congrArg Place.memory (zpPointer_add s b s.x),
      congrArg Place.memory hindY, rfl, rfl, rfl, rfl, rfl, rfl, rfl, rfl⟩

end Sys2Proof.Machine
end

section
/-! The frame of the read-modify-write instructions (O23): one read and one write at the same address. -/

namespace Sys2Proof.Machine

/-- The mnemonics of the read-modify-write instructions (R138). -/
def modifyMnemonics : List Mnemonic := [.inc, .dec, .asl, .lsr, .rol, .ror]

/-- Every instruction with one of them is one read and one write at its operand (R138, R189, R200). -/
theorem exec_modify {i : Instr} (h : i.info.mnemonic ∈ modifyMnemonics) (s : State) :
    ∃ f o, i.operand = some o ∧ exec i s = modify i.info.opcode f o s := by
  cases i with
  | incZp _ | incZpX _ | decZp _ | decZpX _ | aslA | aslZp _ | aslZpX _ | lsrA | lsrZp _ | lsrZpX _
  | rolA | rolZp _ | rolZpX _ | rorA | rorZp _ | rorZpX _ => exact ⟨_, _, rfl, rfl⟩
  | incAbs w | decAbs w | aslAbs w | lsrAbs w | rolAbs w | rorAbs w =>
    exact ⟨_, _, Operand.ofMode_absolute w, rfl⟩
  | incAbsX w | decAbsX w | aslAbsX w | lsrAbsX w | rolAbsX w | rorAbsX w =>
    exact ⟨_, _, Operand.ofMode_absoluteX w, rfl⟩
  | _ => exact absurd h (of_decide_eq_false rfl)

/-- A read at the address and a write there change what the write's frame says, and in a device what the
read does: nothing where the address is none of its registers. -/
theorem busRead_busWrite_frame {ea : Addr} {v r : Byte} {s u w : State} (hr : busRead ea s = .done v u)
    (hw : busWrite ea r u = .done () w) :
    w = { s with
          ram := w.ram, ppu := w.ppu, apu := w.apu, ctl := w.ctl, mapper := w.mapper
          draws := w.draws, buttonDraws := w.buttonDraws } ∧
    (∀ k, (ea.toNat < 0x2000 → k ≠ ea.toNat % 2048) → Memory.read w.ram k = Memory.read s.ram k) ∧
    (∀ a, (ea.toNat < 0x2000 → a.toNat < 0x2000 → a.toNat % 2048 ≠ ea.toNat % 2048) →
      peek w a = peek s a) ∧
    (ea.toNat < 0x2000 ∨ 0x4000 ≤ ea.toNat → w.ppu = s.ppu) ∧
    (ea.toNat < 0x4000 ∨ 0x4018 ≤ ea.toNat → w.apu = s.apu) ∧
    (∀ k, k ≠ ea.toNat → Memory.read w.apu.bank k = Memory.read s.apu.bank k) ∧
    (ea ≠ 0x4016 → w.ctl = s.ctl ∧ w.buttonDraws = s.buttonDraws) ∧
    (ea.toNat < 0x8000 → w.mapper = s.mapper) ∧
    (ea.toNat < 0x4020 → w.draws = s.draws) := by
  have hdma : ea ≠ 0x4014 := by
    rintro rfl
    exact absurd (readable_of_done hr) (by decide)
  obtain ⟨hram, hpeek, hppu, hapu, hbank, hstall, hctl, hmapper⟩ := busWrite_frame hw
  obtain ⟨-, -, -, hrctl, hrdraws⟩ := readsChangeOnlyDevices ea v s u hr
  have hu := busRead_keeps hr
  have hx : w.extraCycles = s.extraCycles := by rw [(hstall hdma).1, hu]
  refine ⟨?_, fun k hk => ?_, fun a ha => ?_, fun h => ?_, fun h => ?_, fun k hk => ?_, fun h => ?_,
    fun h => ?_, fun h => ?_⟩
  · rw [busWrite_keeps hw, hx, hu]
  · rw [hram k hk, hu]
  · rw [hpeek a ha, hu]
    rfl
  · rw [hppu h hdma]
    rcases busRead_done hr with rfl | ⟨_, _, _, _⟩ | ⟨_, _, _, _⟩ | ⟨_, c, n, rfl⟩ | ⟨_, rfl⟩
    · rfl
    · omega
    · omega
    · rfl
    · rfl
  · rw [hapu h, hu]
  · rw [hbank k hk, hu]
  · obtain ⟨hc, hb⟩ := hctl hdma h
    exact ⟨hc.trans (hrctl h).1, hb.trans (hrctl h).2⟩
  · rw [hmapper h, hu]
  · exact (hstall hdma).2.trans (hrdraws h)

/-- They write C, Z and N, and INC and DEC leave C (R26). -/
theorem mnemonicWrites_modify : ∀ m ∈ modifyMnemonics, mnemonicWrites m ⊆ [.c, .z, .n] := by decide

theorem mnemonicWrites_count : ∀ m ∈ ([.inc, .dec] : List Mnemonic), mnemonicWrites m ⊆ [.z, .n] := by decide

/-- Outside the Accumulator mode an instruction writes what its mnemonic does. -/
theorem changesOnly_exec_of_mode {i : Instr} {s t : State} {l : List Part} (h : exec i s = .next t)
    (hm : i.info.mode ≠ .accumulator) (hl : mnemonicWrites i.info.mnemonic ⊆ l) : changesOnly l s t := by
  refine (changesOnly_exec h).mono fun q hq => ?_
  rcases List.mem_append.1 hq with hq | hq
  · exact absurd (mem_modeWrites hq).2 hm
  · exact hl hq

/-- Settles O23: the frames of the read and of the write, and the parts the mnemonic writes. -/
theorem readModifyWriteChangesOnlyItsByte : Obligations.ReadModifyWriteChangesOnlyItsByte := by
  intro i o ea s t hmem ho hp h
  obtain ⟨hmode, hrel⟩ := Operand.mode_of_memory ho hp
  have hstep := step_eq_operandBytes ho hrel
  obtain ⟨f, o', ho', hx⟩ := exec_modify hmem s
  cases ho.symm.trans ho'
  obtain ⟨v, u, w, hr, hw, rfl⟩ := modify_next (hx ▸ h)
  rw [hp] at hr hw
  obtain ⟨hkeep, hframe⟩ := busRead_busWrite_frame hr hw
  refine ⟨?_, fun hc => ?_, hframe⟩
  · obtain ⟨-, -, -, -, -, -, hi, hd, hv, -⟩ :=
      (changesOnly_iff _ _ _).1 (changesOnly_exec_of_mode h hmode (mnemonicWrites_modify _ hmem))
    dsimp only
    rw [← hi (by decide), ← hd (by decide), ← hv (by decide)]
    have hpc : w.pc = s.pc := by rw [hkeep]
    change { w with pc := w.pc + o.step, p := (f v u.p).2 } = _
    rw [hstep, hpc]
    exact congrArg (fun x : State => { x with pc := s.pc + operandBytes i, p := (f v u.p).2 }) hkeep
  · obtain ⟨-, -, -, -, hcarry, -⟩ :=
      (changesOnly_iff _ _ _).1 (changesOnly_exec_of_mode h hmode (mnemonicWrites_count _ hc))
    exact hcarry (by decide)

end Sys2Proof.Machine
end

section
/-! Loads, stores and transfers (O10, O11, O12, O13). -/

namespace Sys2Proof.Machine

/-! ### The rules' tables -/

/-- A table with one entry for each mnemonic gives a mnemonic one entry. -/
theorem entry_unique {α : Type} {table : List (Mnemonic × α)} (hn : (table.map Prod.fst).Nodup) {m : Mnemonic}
    {x y : α} (hx : (m, x) ∈ table) (hy : (m, y) ∈ table) : x = y :=
  (Prod.mk.inj (List.inj_on_of_nodup_map hn hx hy rfl)).2

/-- An instruction as the table of its family has it: its mnemonic's register and rows with its own row among
them, and its meaning the family's operation of that register and its operand. -/
def HasTableForm (table : List (Mnemonic × Reg × List Row)) (op : Reg → Operand → State → Outcome)
    (i : Instr) : Prop :=
  ∃ r rows o, (i.info.mnemonic, r, rows) ∈ table ∧ tableRow i ∈ rows ∧ i.operand = some o ∧
    ∀ s, exec i s = op r o s

/-- The form of an instruction at any entry of its mnemonic. -/
theorem HasTableForm.of_entry {table : List (Mnemonic × Reg × List Row)} {op : Reg → Operand → State → Outcome}
    {i : Instr} {r : Reg} {rows : List Row} (hn : (table.map Prod.fst).Nodup) (h : HasTableForm table op i)
    (hm : (i.info.mnemonic, r, rows) ∈ table) :
    tableRow i ∈ rows ∧ ∃ o, i.operand = some o ∧ ∀ s, exec i s = op r o s := by
  obtain ⟨r', rows', o, hm', hrow, ho, hx⟩ := h
  cases entry_unique hn hm hm'
  exact ⟨hrow, o, ho, hx⟩

/-- Every LDA, LDX, LDY is the load of its register from its operand (R151-R153). -/
theorem hasTableForm_load {i : Instr} (h : i.info.mnemonic ∈ loadTable.map Prod.fst) :
    HasTableForm loadTable load i := by
  cases i with
  | ldaImm _ | ldaZp _ | ldaZpX _ | ldaIndX _ | ldaIndY _ =>
    exact ⟨.a, _, _, .head _, of_decide_eq_true rfl, rfl, fun _ => rfl⟩
  | ldaAbs w => exact ⟨.a, _, _, .head _, of_decide_eq_true rfl, Operand.ofMode_absolute w, fun _ => rfl⟩
  | ldaAbsX w => exact ⟨.a, _, _, .head _, of_decide_eq_true rfl, Operand.ofMode_absoluteX w, fun _ => rfl⟩
  | ldaAbsY w => exact ⟨.a, _, _, .head _, of_decide_eq_true rfl, Operand.ofMode_absoluteY w, fun _ => rfl⟩
  | ldxImm _ | ldxZp _ | ldxZpY _ =>
    exact ⟨.x, _, _, .tail _ (.head _), of_decide_eq_true rfl, rfl, fun _ => rfl⟩
  | ldxAbs w =>
    exact ⟨.x, _, _, .tail _ (.head _), of_decide_eq_true rfl, Operand.ofMode_absolute w, fun _ => rfl⟩
  | ldxAbsY w =>
    exact ⟨.x, _, _, .tail _ (.head _), of_decide_eq_true rfl, Operand.ofMode_absoluteY w, fun _ => rfl⟩
  | ldyImm _ | ldyZp _ | ldyZpX _ =>
    exact ⟨.y, _, _, .tail _ (.tail _ (.head _)), of_decide_eq_true rfl, rfl, fun _ => rfl⟩
  | ldyAbs w =>
    exact ⟨.y, _, _, .tail _ (.tail _ (.head _)), of_decide_eq_true rfl, Operand.ofMode_absolute w, fun _ => rfl⟩
  | ldyAbsX w =>
    exact ⟨.y, _, _, .tail _ (.tail _ (.head _)), of_decide_eq_true rfl, Operand.ofMode_absoluteX w, fun _ => rfl⟩
  | _ => exact absurd h (of_decide_eq_false rfl)

/-- Every STA, STX, STY is the store of its register to its operand (R154-R156). -/
theorem hasTableForm_store {i : Instr} (h : i.info.mnemonic ∈ storeTable.map Prod.fst) :
    HasTableForm storeTable (store i.info.opcode) i := by
  cases i with
  | staZp _ | staZpX _ | staIndX _ | staIndY _ =>
    exact ⟨.a, _, _, .head _, of_decide_eq_true rfl, rfl, fun _ => rfl⟩
  | staAbs w => exact ⟨.a, _, _, .head _, of_decide_eq_true rfl, Operand.ofMode_absolute w, fun _ => rfl⟩
  | staAbsX w => exact ⟨.a, _, _, .head _, of_decide_eq_true rfl, Operand.ofMode_absoluteX w, fun _ => rfl⟩
  | staAbsY w => exact ⟨.a, _, _, .head _, of_decide_eq_true rfl, Operand.ofMode_absoluteY w, fun _ => rfl⟩
  | stxZp _ | stxZpY _ => exact ⟨.x, _, _, .tail _ (.head _), of_decide_eq_true rfl, rfl, fun _ => rfl⟩
  | stxAbs w =>
    exact ⟨.x, _, _, .tail _ (.head _), of_decide_eq_true rfl, Operand.ofMode_absolute w, fun _ => rfl⟩
  | styZp _ | styZpX _ =>
    exact ⟨.y, _, _, .tail _ (.tail _ (.head _)), of_decide_eq_true rfl, rfl, fun _ => rfl⟩
  | styAbs w =>
    exact ⟨.y, _, _, .tail _ (.tail _ (.head _)), of_decide_eq_true rfl, Operand.ofMode_absolute w, fun _ => rfl⟩
  | _ => exact absurd h (of_decide_eq_false rfl)

/-- No load is in Relative mode. -/
theorem loadTable_mode : ∀ e ∈ loadTable, ∀ row ∈ e.2.2, row.2.1 ≠ .relative := by decide

/-! ### Transfers -/

/-- A register takes a value, and Z and N follow it, as one update (R13). -/
theorem setZN_setReg (r : Reg) (v : Byte) (u : State) :
    setZN v (u.setReg r v) = { u.setReg r v with p := { u.p with z := decide (v = 0), n := v.msb } } := by
  rw [setZN, State.setReg_p, Flags.setZN_eq]
  rfl

/-- Settles O13: each transfer is its row and the update of its destination and flags. -/
theorem transfersCopyARegister : Obligations.TransfersCopyARegister := by
  refine fun s => ⟨fun i opcode v r h => ?_, rfl, rfl⟩
  simp only [transferTable, List.mem_cons, Prod.mk.injEq, List.not_mem_nil, or_false] at h
  rcases h with ⟨rfl, rfl, rfl, rfl⟩ | ⟨rfl, rfl, rfl, rfl⟩ | ⟨rfl, rfl, rfl, rfl⟩ | ⟨rfl, rfl, rfl, rfl⟩ |
    ⟨rfl, rfl, rfl, rfl⟩ <;>
    exact ⟨rfl, congrArg Host.Outcome.next (setZN_setReg _ _ s)⟩

/-! ### Loads -/

/-- Settles O10: the load of the mnemonic's register, by what its read does. -/
theorem loadsWriteTheirRegister : Obligations.LoadsWriteTheirRegister := by
  intro i r rows s h
  obtain ⟨hrow, o, ho, hx⟩ :=
    (hasTableForm_load (List.mem_map_of_mem (f := Prod.fst) h)).of_entry (by decide) h
  have hstep : o.step = operandBytes i := step_eq_operandBytes ho (loadTable_mode _ h _ hrow)
  refine ⟨hrow, o, ho, fun hr => ?_, fun hr => ?_⟩
  · obtain ⟨v, u, hu⟩ := modeRead_of_readable hr
    have hp : u.p = s.p := by rw [modeRead_keeps hu]
    have hpc : (u.setReg r v).pc = s.pc := by rw [State.setReg_pc, modeRead_keeps hu]
    refine ⟨v, u, hu, ?_⟩
    rw [hx, load_of_done hu, setZN_setReg, advance, hstep, hp, hpc]
    rfl
  · obtain ⟨f, hf⟩ := modeRead_of_not_readable hr
    exact ⟨f, hf, (hx s).trans (load_of_raised hf)⟩

/-! ### Stores -/

/-- No store is in a mode without an effective address. -/
theorem storeTable_mode : ∀ e ∈ storeTable, ∀ row ∈ e.2.2,
    row.2.1 ∉ ([.accumulator, .immediate, .relative] : List AddrMode) := by decide

/-- Every other mode of the resolver has an effective address (R127-R134). -/
theorem Operand.place_eq_memory {m : AddrMode} {bytes : List Byte} {o : Operand}
    (ho : Operand.ofMode m bytes = some o) (hm : m ∉ ([.accumulator, .immediate, .relative] : List AddrMode))
    (s : State) : ∃ ea, place o s = .memory ea := by
  unfold Operand.ofMode at ho
  split at ho <;> cases ho
  case h_1 | h_2 | h_11 => exact absurd (by decide) hm
  all_goals exact ⟨_, rfl⟩

/-- The closing step after the write at an operand: PC moves from where the instruction found it. -/
theorem advance_of_busWrite {i : Instr} {o : Operand} {ea : Addr} {v : Byte} {s u : State}
    (ho : i.operand = some o) (hp : place o s = .memory ea) (hu : busWrite ea v s = .done () u) :
    advance o u = u.setPc (s.pc + operandBytes i) := by
  obtain ⟨-, hrel⟩ := Operand.mode_of_memory ho hp
  have hpc : u.pc = s.pc := by rw [busWrite_keeps hu]
  rw [advance, step_eq_operandBytes ho hrel, hpc]

/-- Settles O11: the bus write at the store's address, by whether it completes. -/
theorem storesWriteTheirRegister : Obligations.StoresWriteTheirRegister := by
  intro i r rows s h
  obtain ⟨hrow, o, ho, hx⟩ :=
    (hasTableForm_store (List.mem_map_of_mem (f := Prod.fst) h)).of_entry (by decide) h
  obtain ⟨ea, hp⟩ := Operand.place_eq_memory ho (storeTable_mode _ h _ hrow) s
  have hw : modeWrite i.info.opcode (place o s) (s.reg r) s = busWrite ea (s.reg r) s := by rw [hp]; rfl
  refine ⟨hrow, o, ea, ho, hp, fun hc => ?_, fun ⟨hea, hpage⟩ => ?_⟩
  · obtain ⟨u, hu⟩ := busWrite_completes (s.reg r) s hc
    refine ⟨u, hu, ?_⟩
    rw [hx, store_of_done (hw.trans hu), advance_of_busWrite ho hp hu]
    rfl
  · obtain ⟨f, hf⟩ := oamDma_faults hpage s
    rw [← busWrite_dma, ← hea] at hf
    exact ⟨f, hf, (hx s).trans (store_of_raised (hw.trans hf))⟩

/-- Settles O12: the frame of the one bus write that a store makes. -/
theorem storesChangeOnlyTheirByte : Obligations.StoresChangeOnlyTheirByte := by
  intro i o ea s t hmem ho hp h
  obtain ⟨r, -, o', -, -, ho', hx⟩ := hasTableForm_store hmem
  cases ho.symm.trans ho'
  obtain ⟨u, hu, rfl⟩ := store_next (hx s ▸ h)
  rw [hp] at hu
  have hframe := busWrite_frame hu
  rw [advance_of_busWrite ho hp hu]
  exact ⟨congrArg (State.setPc · (s.pc + operandBytes i)) (busWrite_keeps hu), hframe⟩

end Sys2Proof.Machine
end

section
/-! Instructions that store nothing (O33): they only read, and a read stores nothing. -/

namespace Sys2Proof.Machine

/-! ### What a read keeps -/

/-- What only a write changes: the memories, the bytes of RAM and PRG as seen without an access, the APU bank
and flags, the mapper, the stall, and the PPU's write-only registers but for the VRAM address and its toggle. -/
def State.stored (s : State) :
    Memory × (Addr → Option Byte) × Apu × Mapper × Nat × (Memory × Memory × Memory × Memory) ×
      (Byte × Byte × Byte) × (Byte × Byte × Bool) :=
  (s.ram, peek s, s.apu, s.mapper, s.extraCycles, (s.ppu.oam, s.ppu.nt, s.ppu.pal, s.ppu.chrRam),
    (s.ppu.ctrl, s.ppu.mask, s.ppu.oamAddr), (s.ppu.scroll0, s.ppu.scroll1, s.ppu.scrollToggle))

/-- No bus read changes it: a $2002 read clears vblank and may reset the toggle, a $2007 read moves the
VRAM address and refills the buffer, the others touch no memory (R53, R60). -/
theorem busRead_stored {a : Addr} {v : Byte} {s t : State} (h : busRead a s = .done v t) :
    t.stored = s.stored := by
  rcases busRead_done h with rfl | ⟨_, _, _, rfl⟩ | ⟨_, _, _, rfl⟩ | ⟨_, c, n, rfl⟩ | ⟨_, rfl⟩ <;> rfl

/-! ### The instructions -/

/-- An outcome reached from a state by bus reads alone, and then a change of nothing stored. -/
inductive ReadsOnly : State → Outcome → Prop
  | next {s t : State} (ht : t.stored = s.stored) : ReadsOnly s (.next t)
  | read {s : State} (a : Addr) {k : Byte → State → Outcome} (hk : ∀ v u, ReadsOnly u (k v u)) :
      ReadsOnly s ((busRead a s).andThen k)

/-- Reads alone, and then a change of nothing stored, keep what is stored. -/
theorem ReadsOnly.stored {s t : State} {out : Outcome} (h : ReadsOnly s out) (ht : out = .next t) :
    t.stored = s.stored := by
  induction h with
  | next hs =>
    cases ht
    exact hs
  | read a _ ih =>
    obtain ⟨v, u, hu, hk⟩ := Access.andThen_next ht
    exact (ih v u hk).trans (busRead_stored hu)

/-- Every instruction outside the mnemonics that store only reads, and so does a shift of A (R138). -/
theorem exec_readsOnly {i : Instr} (s : State)
    (h : i.info.mnemonic ∉ ([.sta, .stx, .sty, .inc, .dec, .jsr, .pha, .php] : List Mnemonic))
    (hs : i.info.mnemonic ∈ ([.asl, .lsr, .rol, .ror] : List Mnemonic) → i.info.mode = .accumulator) :
    ReadsOnly s (exec i s) := by
  cases i with
  | ldaZp _ | ldaZpX _ | ldaAbs _ | ldaAbsX _ | ldaAbsY _ | ldaIndX _ | ldaIndY _
  | ldxZp _ | ldxZpY _ | ldxAbs _ | ldxAbsY _
  | ldyZp _ | ldyZpX _ | ldyAbs _ | ldyAbsX _
  | adcZp _ | adcZpX _ | adcAbs _ | adcAbsX _ | adcAbsY _ | adcIndX _ | adcIndY _
  | sbcZp _ | sbcZpX _ | sbcAbs _ | sbcAbsX _ | sbcAbsY _ | sbcIndX _ | sbcIndY _
  | andZp _ | andZpX _ | andAbs _ | andAbsX _ | andAbsY _ | andIndX _ | andIndY _
  | oraZp _ | oraZpX _ | oraAbs _ | oraAbsX _ | oraAbsY _ | oraIndX _ | oraIndY _
  | eorZp _ | eorZpX _ | eorAbs _ | eorAbsX _ | eorAbsY _ | eorIndX _ | eorIndY _
  | cmpZp _ | cmpZpX _ | cmpAbs _ | cmpAbsX _ | cmpAbsY _ | cmpIndX _ | cmpIndY _
  | cpxZp _ | cpxAbs _ | cpyZp _ | cpyAbs _ | bitZp _ | bitAbs _ =>
    exact .read _ fun _ _ => .next rfl
  | ldaImm _ | ldxImm _ | ldyImm _ | adcImm _ | sbcImm _ | andImm _ | oraImm _ | eorImm _
  | cmpImm _ | cpxImm _ | cpyImm _
  | aslA | lsrA | rolA | rorA | tax | tay | txa | tya | tsx | txs | inx | iny | dex | dey | jmpAbs _ | rts
  | rti | pla | plp | clc | sec | cli | sei | clv | cld | sed | nop | nopU1A | nopU3A | nopU5A | nopU7A
  | nopUDA | nopUFA | nopU80 _ | nopU82 _ | nopU89 _ | nopUC2 _ | nopUE2 _ | nopU04 _ | nopU44 _ | nopU64 _
  | nopU14 _ | nopU34 _ | nopU54 _ | nopU74 _ | nopUD4 _ | nopUF4 _ | nopU0C _ | nopU1C _ | nopU3C _
  | nopU5C _ | nopU7C _ | nopUDC _ | nopUFC _ =>
    exact .next rfl
  | bpl _ | bmi _ | bvc _ | bvs _ | bcc _ | bcs _ | bne _ | beq _ =>
    exact .next (by split <;> rfl)
  | jmpInd _ => exact .read _ fun _ _ => .read _ fun _ _ => .next rfl
  | aslZp _ | aslZpX _ | aslAbs _ | aslAbsX _ | lsrZp _ | lsrZpX _ | lsrAbs _ | lsrAbsX _
  | rolZp _ | rolZpX _ | rolAbs _ | rolAbsX _ | rorZp _ | rorZpX _ | rorAbs _ | rorAbsX _ =>
    exact absurd (hs (of_decide_eq_true rfl)) nofun
  | _ => exact absurd (of_decide_eq_true rfl) h

/-- Settles O33: these instructions only read, which keeps what is stored; component by component. -/
theorem formsThatStoreNothingKeepMemory : Obligations.FormsThatStoreNothingKeepMemory := by
  intro i s t h hm hs
  have hstored := (exec_readsOnly s hm hs).stored h
  simp only [State.stored, Prod.mk.injEq] at hstored
  obtain ⟨hram, hpeek, hapu, hmapper, hstall, ⟨hoam, hnt, hpal, hchr⟩, ⟨hctrl, hmask, hoamAddr⟩,
    hscroll0, hscroll1, htoggle⟩ := hstored
  exact ⟨hram, congrFun hpeek, hapu, hmapper, hstall, hoam, hnt, hpal, hchr, hctrl, hmask, hoamAddr,
    hscroll0, hscroll1, htoggle⟩

end Sys2Proof.Machine
end

section
/-! The adder and the flag computations that rest on it (O14). -/

namespace Sys2Proof.Machine

/-! ### The bit-serial adder -/

/-- The sum the adder is to build, in eight bits. -/
def carrySum (a b : Byte) (cin : Bool) : Byte := a + b + BitVec.setWidth 8 (BitVec.ofBool cin)

/-- The adder after `k + 1` bits: the low bits of the sum, and the last two carries. -/
def Adder.after (a b : Byte) (cin : Bool) (k : Nat) : Adder where
  r := ((carrySum a b cin).setWidth (k + 1)).setWidth 8
  c7 := BitVec.carry k a b cin
  c := BitVec.carry (k + 1) a b cin

/-- One more bit of a byte, put above the bits below it. -/
theorem setWidth_or_bit (v : Byte) (k : Nat) :
    (v.setWidth k).setWidth 8 ||| (ofBit (v.getLsbD k) <<< k) = ((v.setWidth (k + 1)).setWidth 8 : Byte) := by
  cases hb : v.getLsbD k with
  | false =>
    rw [BitVec.setWidth_setWidth_succ_eq_setWidth_setWidth_of_getLsbD_false hb]
    simp [ofBit]
  | true =>
    rw [BitVec.setWidth_setWidth_succ_eq_setWidth_setWidth_or_twoPow_of_getLsbD_true hb, BitVec.twoPow_eq]
    rfl

/-- One bit of the loop adds a bit of the sum and carries on (R171). -/
theorem Adder.step_eq (a b : Byte) (cin c7 : Bool) {k : Nat} (hk : k < 8) :
    Adder.step a b ⟨((carrySum a b cin).setWidth k).setWidth 8, c7, BitVec.carry k a b cin⟩ k =
      Adder.after a b cin k := by
  have hbit := BitVec.getLsbD_add_add_bool hk a b cin
  rw [← Bool.xor_assoc] at hbit
  rw [Adder.step, Adder.after, ← setWidth_or_bit, BitVec.carry_succ, carrySum, hbit]
  rfl

/-- The loop of the adder, bit by bit. -/
theorem Adder.foldl_step (a b : Byte) (cin : Bool) {k : Nat} (hk : k < 8) :
    (List.range (k + 1)).foldl (Adder.step a b) ⟨0, false, cin⟩ = Adder.after a b cin k := by
  induction k with
  | zero =>
    have h := Adder.step_eq a b cin false hk
    rw [BitVec.carry_zero] at h
    simpa [BitVec.of_length_zero] using h
  | succ k ih =>
    rw [List.range_succ, List.foldl_append, ih (by omega)]
    exact Adder.step_eq a b cin (BitVec.carry k a b cin) hk

/-- The adder gives the sum, the carry out of bit 7, and the carry into it XOR the carry out of it (R171). -/
theorem bitSerialAdd_eq (a b : Byte) (cin : Bool) :
    bitSerialAdd a b cin =
      (carrySum a b cin, BitVec.carry 8 a b cin, BitVec.carry 7 a b cin ^^ BitVec.carry 8 a b cin) := by
  have h := Adder.foldl_step a b cin (k := 7) (by decide)
  rw [bitSerialAdd, show [0, 1, 2, 3, 4, 5, 6, 7] = List.range 8 from rfl, h]
  simp [Adder.after]

/-- The sum as a number. -/
theorem toNat_carrySum (a b : Byte) (cin : Bool) :
    (carrySum a b cin).toNat = (a.toNat + b.toNat + cin.toNat) % 256 := by
  cases cin <;> simp [carrySum, BitVec.toNat_add]

/-- The carry out of bit 7. -/
theorem carry_eight (a b : Byte) (cin : Bool) :
    BitVec.carry 8 a b cin = decide (256 ≤ a.toNat + b.toNat + cin.toNat) := by
  rw [BitVec.carry, Nat.mod_eq_of_lt a.isLt, Nat.mod_eq_of_lt b.isLt]

/-- The carry into bit 7. -/
theorem carry_seven (a b : Byte) (cin : Bool) :
    BitVec.carry 7 a b cin = decide (128 ≤ a.toNat % 128 + b.toNat % 128 + cin.toNat) := rfl

/-- Settles O14: the sum and the carries as numbers; overflow by the signs, which are the bounds at 128. -/
theorem bitSerialAdderLaws : Obligations.BitSerialAdderLaws := by
  intro a b cin n t
  have ha := a.isLt
  have hb := b.isLt
  have hc := cin.toNat_lt
  have ht : t = _ := bitSerialAdd_eq a b cin
  rw [ht]
  simp only [BitVec.msb_eq_decide, BitVec.toInt_eq_toNat_cond, toNat_carrySum, carry_eight, carry_seven]
  refine ⟨rfl, rfl, ?_, ?_, trivial⟩
  · rw [Bool.eq_iff_iff]
    simp only [Bool.xor_iff_ne, ne_eq, decide_eq_decide, decide_eq_true_eq]
    omega
  · rw [Bool.eq_iff_iff]
    simp only [Bool.xor_iff_ne, ne_eq, decide_eq_decide, Bool.not_eq_true', decide_eq_false_iff_not]
    split <;> split <;> omega

/-! ### The flag computations -/

/-- Z and N of a byte given by a number modulo 256. -/
theorem Flags.setZN_ofNat (p : Flags) (n : Nat) :
    p.setZN (BitVec.ofNat 8 n) = { p with z := decide (n % 256 = 0), n := decide (128 ≤ n % 256) } := by
  have hz : (BitVec.ofNat 8 n = 0) = (n % 256 = 0) := by
    rw [← BitVec.toNat_inj, BitVec.toNat_ofNat]
    rfl
  rw [Flags.setZN_eq, BitVec.msb_eq_decide, BitVec.toNat_ofNat]
  simp only [hz]

/-- ADC by number (R173). -/
theorem addWithCarry_eq (a m : Byte) (p : Flags) {n : Nat} {k : Int}
    (hn : a.toNat + m.toNat + p.c.toNat = n) (hk : a.toInt + m.toInt + p.c.toNat = k) :
    addWithCarry a m p = (BitVec.ofNat 8 n,
      { p with
        c := decide (256 ≤ n), v := !decide (-128 ≤ k ∧ k ≤ 127)
        z := decide (n % 256 = 0), n := decide (128 ≤ n % 256) }) := by
  subst hn hk
  obtain ⟨hsum, hcarry, -, hoverflow, -⟩ := bitSerialAdderLaws a m p.c
  have hr : (bitSerialAdd a m p.c).1 = BitVec.ofNat 8 (a.toNat + m.toNat + p.c.toNat) := by
    rw [← BitVec.toNat_inj, hsum, BitVec.toNat_ofNat]
  simp only [addWithCarry, hr, hcarry, hoverflow, Flags.setZN_ofNat]

/-- SBC by number: the complement adds what the difference and its borrow take from 256 (R174). -/
theorem subtractWithBorrow_eq (a m : Byte) (p : Flags) {borrow n : Nat} {k : Int}
    (hb : 1 - p.c.toNat = borrow)
    (hn : 256 + a.toNat - m.toNat - borrow = n) (hk : a.toInt - m.toInt - borrow = k) :
    subtractWithBorrow a m p = (BitVec.ofNat 8 n,
      { p with
        c := decide (m.toNat + borrow ≤ a.toNat), v := !decide (-128 ≤ k ∧ k ≤ 127)
        z := decide (n % 256 = 0), n := decide (128 ≤ n % 256) }) := by
  have hm := m.isLt
  have hc := p.c.toNat_lt
  have hnot : (~~~m).toNat = 255 - m.toNat := BitVec.toNat_not
  have hint : (~~~m).toInt = -1 - m.toInt := by
    rw [BitVec.toInt_eq_toNat_cond, BitVec.toInt_eq_toNat_cond, hnot]
    split <;> split <;> omega
  have hcarry : (m.toNat + borrow ≤ a.toNat) = (256 ≤ n) := propext (by omega)
  simp only [hcarry]
  exact addWithCarry_eq a (~~~m) p (by omega) (by omega)

/-- Subtraction is addition of the complement with carry 1. -/
theorem carrySum_not (r m : Byte) : carrySum r (~~~m) true = r - m := by
  rw [BitVec.sub_eq_add_neg, BitVec.neg_eq_not_add, ← BitVec.add_assoc]
  rfl

/-- Compare by number: the flags of the difference, whatever the old C (R178). -/
theorem compareFlags_eq (r m : Byte) (p : Flags) :
    compareFlags r m p = { p with c := decide (m.toNat ≤ r.toNat), z := decide (r = m), n := (r - m).msb } := by
  have hm := m.isLt
  have hcarry : (256 ≤ r.toNat + (~~~m).toNat + true.toNat) = (m.toNat ≤ r.toNat) := by
    rw [BitVec.toNat_not]
    simp only [Bool.toNat_true]
    exact propext (by omega)
  have hz : (r - m = 0) = (r = m) := propext sub_eq_zero
  simp only [compareFlags, bitSerialAdd_eq, carrySum_not, carry_eight, Flags.setZN_eq, hcarry, hz]

/-- The flags of BIT (R182). -/
theorem bitTest_eq (a m : Byte) (p : Flags) :
    bitTest a m p = { p with z := decide (a &&& m = 0), n := m.getLsbD 7, v := m.getLsbD 6 } := by
  simp [bitTest, bit, beq_eq_decide]

/-- Adding a byte, with Z and N of the sum. -/
def count (d v : Byte) (p : Flags) : Byte × Flags := (v + d, p.setZN (v + d))

/-- DEC adds 255 (R184); INC is `count 1` as it stands (R183). -/
theorem decrement_eq_count : decrement = count 255 := by
  funext v p
  simp [decrement, count, BitVec.sub_eq_add_neg]

theorem modify_decrement (opcode : Byte) (o : Operand) (s : State) :
    modify opcode decrement o s = modify opcode (count 255) o s := by rw [decrement_eq_count]

theorem modifyReg_decrement (r : Reg) (s : State) :
    modifyReg decrement r s = modifyReg (count 255) r s := by rw [decrement_eq_count]

end Sys2Proof.Machine
end

section
/-! Arithmetic, logic, compares and counts as instructions (O15 to O21). -/

namespace Sys2Proof.Machine

/-! ### The rules' tables -/

/-- The operation of each mnemonic on its operand, given the opcode, and its rows (R173-R184). -/
def operationTable : List (Mnemonic × (Byte → Operand → State → Outcome) × List Row) :=
  [(.adc, fun _ => accumulate addWithCarry, adcRows), (.sbc, fun _ => accumulate subtractWithBorrow, sbcRows),
    (.bit, fun _ => testFlags bitTest .a, bitRows)] ++
  logicTable.map (fun e => (e.1, fun _ => accumulate (logical e.2.1), e.2.2)) ++
  compareTable.map (fun e => (e.1, fun _ => testFlags compareFlags e.2.1, e.2.2)) ++
  countTable.map (fun e => (e.1, fun opcode => modify opcode (count e.2.1), e.2.2))

/-- The form of an instruction with rows and an operation: its row is one of them, and its meaning is the
operation on its operand, which reaches as far as its operand bytes. -/
def HasForm (op : Byte → Operand → State → Outcome) (rows : List Row) (i : Instr) : Prop :=
  tableRow i ∈ rows ∧
  ∃ o, i.operand = some o ∧ o.step = operandBytes i ∧ ∀ s, exec i s = op i.info.opcode o s

/-- Every instruction of the table has the form of its mnemonic. -/
theorem hasForm_of_lookup {i : Instr} {op : Byte → Operand → State → Outcome} {rows : List Row}
    (h : operationTable.lookup i.info.mnemonic = some (op, rows)) : HasForm op rows i := by
  cases i with
  | adcImm _ | adcZp _ | adcZpX _ | adcIndX _ | adcIndY _ | sbcImm _ | sbcZp _ | sbcZpX _ | sbcIndX _
  | sbcIndY _ | andImm _ | andZp _ | andZpX _ | andIndX _ | andIndY _ | oraImm _ | oraZp _ | oraZpX _
  | oraIndX _ | oraIndY _ | eorImm _ | eorZp _ | eorZpX _ | eorIndX _ | eorIndY _ | cmpImm _ | cmpZp _
  | cmpZpX _ | cmpIndX _ | cmpIndY _ | cpxImm _ | cpxZp _ | cpyImm _ | cpyZp _ | bitZp _ | incZp _
  | incZpX _ =>
    cases h
    exact ⟨of_decide_eq_true rfl, _, rfl, rfl, fun _ => rfl⟩
  | adcAbs w | sbcAbs w | andAbs w | oraAbs w | eorAbs w | cmpAbs w | cpxAbs w | cpyAbs w | bitAbs w
  | incAbs w =>
    cases h
    exact ⟨of_decide_eq_true rfl, _, Operand.ofMode_absolute w, rfl, fun _ => rfl⟩
  | adcAbsX w | sbcAbsX w | andAbsX w | oraAbsX w | eorAbsX w | cmpAbsX w | incAbsX w =>
    cases h
    exact ⟨of_decide_eq_true rfl, _, Operand.ofMode_absoluteX w, rfl, fun _ => rfl⟩
  | adcAbsY w | sbcAbsY w | andAbsY w | oraAbsY w | eorAbsY w | cmpAbsY w =>
    cases h
    exact ⟨of_decide_eq_true rfl, _, Operand.ofMode_absoluteY w, rfl, fun _ => rfl⟩
  | decZp _ | decZpX _ =>
    cases h
    exact ⟨of_decide_eq_true rfl, _, rfl, rfl, modify_decrement _ _⟩
  | decAbs w =>
    cases h
    exact ⟨of_decide_eq_true rfl, _, Operand.ofMode_absolute w, rfl, modify_decrement _ _⟩
  | decAbsX w =>
    cases h
    exact ⟨of_decide_eq_true rfl, _, Operand.ofMode_absoluteX w, rfl, modify_decrement _ _⟩
  | _ => cases h

/-- The entries of AND, ORA, EOR, in the terms of their own table (R175-R177). -/
theorem lookup_logic : ∀ e ∈ logicTable,
    operationTable.lookup e.1 = some (fun _ => accumulate (logical e.2.1), e.2.2) := by
  simp only [logicTable, List.forall_mem_cons]
  exact ⟨rfl, rfl, rfl, nofun⟩

/-- The entries of CMP, CPX, CPY (R179-R181). -/
theorem lookup_compare : ∀ e ∈ compareTable,
    operationTable.lookup e.1 = some (fun _ => testFlags compareFlags e.2.1, e.2.2) := by
  simp only [compareTable, List.forall_mem_cons]
  exact ⟨rfl, rfl, rfl, nofun⟩

/-- The entries of INC and DEC (R183, R184). -/
theorem lookup_count : ∀ e ∈ countTable,
    operationTable.lookup e.1 = some (fun opcode => modify opcode (count e.2.1), e.2.2) := by
  simp only [countTable, List.forall_mem_cons]
  exact ⟨rfl, rfl, nofun⟩

/-! ### Instructions that read -/

/-- An instruction that reads its operand and updates the state with the byte read, or faults with the read. -/
def ReadsThen (i : Instr) (s : State) (update : Byte → State → State) : Prop :=
  ∃ o, i.operand = some o ∧
    (o.readable s = true → ∃ m u, modeRead (place o s) s = .done m u ∧ exec i s = .next (update m u)) ∧
    (o.readable s = false → ∃ f, modeRead (place o s) s = .raised f ∧ exec i s = .fault f)

/-- An operation that reads and faults only with the read, by what it does after the read. -/
theorem ReadsThen.of_exec {i : Instr} {o : Operand} {s : State} {update : Byte → State → State}
    (ho : i.operand = some o)
    (hdone : ∀ {m u}, modeRead (place o s) s = .done m u → exec i s = .next (update m u))
    (hraised : ∀ {f}, modeRead (place o s) s = .raised f → exec i s = .fault f) : ReadsThen i s update := by
  refine ⟨o, ho, fun hr => ?_, fun hr => ?_⟩
  · obtain ⟨m, u, hu⟩ := modeRead_of_readable hr
    exact ⟨m, u, hu, hdone hu⟩
  · obtain ⟨f, hf⟩ := modeRead_of_not_readable hr
    exact ⟨f, hf, hraised hf⟩

/-- A read keeps the registers, the flags and PC. -/
theorem modeRead_registers {p : Place} {s u : State} {m : Byte} (h : modeRead p s = .done m u) :
    u.reg = s.reg ∧ u.p = s.p ∧ u.pc = s.pc := by
  rw [modeRead_keeps h]
  exact ⟨funext fun r => by cases r <;> rfl, rfl, rfl⟩

/-- An accumulating instruction reads its operand, and A and the flags take the operation's results. -/
theorem readsThen_accumulate {i : Instr} {f : Byte → Byte → Flags → Byte × Flags} {rows : List Row}
    (h : operationTable.lookup i.info.mnemonic = some (fun _ => accumulate f, rows)) (s : State)
    {a : Byte → Byte} {p : Byte → Flags} (hf : ∀ m, f s.a m s.p = (a m, p m)) :
    tableRow i ∈ rows ∧
    ReadsThen i s fun m u => { u with a := a m, p := p m, pc := s.pc + operandBytes i } := by
  obtain ⟨hrow, o, ho, hstep, hx⟩ := hasForm_of_lookup h
  dsimp only at hx
  refine ⟨hrow, .of_exec ho (fun {m u} hu => ?_) fun hu => (hx s).trans (accumulate_of_raised hu)⟩
  obtain ⟨hreg, hp, hpc⟩ := modeRead_registers hu
  have ha : u.a = s.a := congrFun hreg .a
  rw [hx, accumulate_of_done hu, ha, hp, hf, advance, hstep, State.setP_pc, State.setA_pc, hpc]
  rfl

/-- A testing instruction reads its operand, and the flags take the test's results. -/
theorem readsThen_testFlags {i : Instr} {f : Byte → Byte → Flags → Flags} {r : Reg} {rows : List Row}
    (h : operationTable.lookup i.info.mnemonic = some (fun _ => testFlags f r, rows)) (s : State)
    {p : Byte → Flags} (hf : ∀ m, f (s.reg r) m s.p = p m) :
    tableRow i ∈ rows ∧ ReadsThen i s fun m u => { u with p := p m, pc := s.pc + operandBytes i } := by
  obtain ⟨hrow, o, ho, hstep, hx⟩ := hasForm_of_lookup h
  dsimp only at hx
  refine ⟨hrow, .of_exec ho (fun {m u} hu => ?_) fun hu => (hx s).trans (testFlags_of_raised hu)⟩
  obtain ⟨hreg, hp, hpc⟩ := modeRead_registers hu
  rw [hx, testFlags_of_done hu, hreg, hp, hf, advance, hstep, State.setP_pc, hpc]
  rfl

/-- Settles O15: ADC is the accumulating instruction of the adder. -/
theorem addWithCarrySumsIntoA : Obligations.AddWithCarrySumsIntoA := fun i s h =>
  readsThen_accumulate (i := i) (by rw [h]; rfl) s fun m => addWithCarry_eq s.a m s.p rfl rfl

/-- Settles O16: SBC is the accumulating instruction of the adder with the operand's complement. -/
theorem subtractWithBorrowFromA : Obligations.SubtractWithBorrowFromA := fun i s h =>
  readsThen_accumulate (i := i) (by rw [h]; rfl) s fun m => subtractWithBorrow_eq s.a m s.p rfl rfl rfl

/-- Settles O17: AND, ORA, EOR are the accumulating instructions of their bitwise operations. -/
theorem logicalOperationsCombineIntoA : Obligations.LogicalOperationsCombineIntoA := fun _ f _ s h =>
  readsThen_accumulate (lookup_logic _ h) s fun m => congrArg (f s.a m, ·) (Flags.setZN_eq s.p (f s.a m))

/-- Settles O18: CMP, CPX, CPY test their register by comparison. -/
theorem comparesSetOnlyFlags : Obligations.ComparesSetOnlyFlags := fun _ r _ s h =>
  readsThen_testFlags (lookup_compare _ h) s fun m => compareFlags_eq (s.reg r) m s.p

/-- Settles O19: BIT tests A against its operand. -/
theorem bitTestSetsOnlyFlags : Obligations.BitTestSetsOnlyFlags := fun i s h =>
  readsThen_testFlags (i := i) (by rw [h]; rfl) s fun m => bitTest_eq s.a m s.p

/-! ### Increments and decrements -/

/-- No count is in a mode without an effective address. -/
theorem countTable_mode : ∀ e ∈ countTable, ∀ row ∈ e.2.2,
    row.2.1 ∉ ([.accumulator, .immediate, .relative] : List AddrMode) := by decide

/-- Settles O20: one read at the operand's address and one write there, which completes because no readable
address starts a DMA. -/
theorem incrementAndDecrementMemory : Obligations.IncrementAndDecrementMemory := by
  intro i d rows s h
  obtain ⟨hrow, o, ho, hstep, hx⟩ := hasForm_of_lookup (lookup_count _ h)
  dsimp only at hx
  obtain ⟨ea, hp⟩ := Operand.place_eq_memory ho (countTable_mode _ h _ hrow) s
  refine ⟨hrow, o, ea, ho, hp, fun hr => ?_, fun hr => ?_⟩
  · obtain ⟨v, u, hu⟩ := busRead_of_readable s hr
    have hdma : ea ≠ 0x4014 := by
      rintro rfl
      exact absurd hr (by decide)
    obtain ⟨w, hw⟩ := busWrite_of_ne_dma (v + d) u hdma
    refine ⟨v, u, w, hu, hw, ?_⟩
    have hread : modeRead (place o s) s = .done v u := by
      rw [hp]
      exact hu
    have hwrite : modeWrite i.info.opcode (place o s) (count d v u.p).1 u = .done () w := by
      rw [hp]
      exact hw
    obtain ⟨-, hflags, hpc⟩ := modeRead_registers hread
    have hwpc : w.pc = s.pc := (congrArg State.pc (busWrite_keeps hw)).trans hpc
    rw [hx, modify_of_done hread hwrite, hflags, advance, hstep, State.setP_pc, hwpc, count, Flags.setZN_eq]
    rfl
  · obtain ⟨f, hf⟩ := busRead_of_not_readable s hr
    exact ⟨f, hf, (hx s).trans (modify_of_raised (by rw [hp]; exact hf))⟩

/-- A register takes its count, and Z and N follow it, as one update (R185-R188). -/
theorem modifyReg_count (d : Byte) (r : Reg) (s : State) :
    modifyReg (count d) r s =
      .next { s.setReg r (s.reg r + d) with
        p := { s.p with z := decide (s.reg r + d = 0), n := (s.reg r + d).msb } } := by
  rw [modifyReg, count, Flags.setZN_eq]
  rfl

/-- Settles O21: each is its row and the count of its register. -/
theorem incrementAndDecrementRegisters : Obligations.IncrementAndDecrementRegisters := by
  intro i opcode d r s h
  simp only [registerCountTable, List.mem_cons, Prod.mk.injEq, List.not_mem_nil, or_false] at h
  rw [← modifyReg_count]
  rcases h with ⟨rfl, rfl, rfl, rfl⟩ | ⟨rfl, rfl, rfl, rfl⟩ | ⟨rfl, rfl, rfl, rfl⟩ | ⟨rfl, rfl, rfl, rfl⟩
  · exact ⟨rfl, rfl⟩
  · exact ⟨rfl, rfl⟩
  · exact ⟨rfl, modifyReg_decrement .x s⟩
  · exact ⟨rfl, modifyReg_decrement .y s⟩

end Sys2Proof.Machine
end

section
/-! Shifts and rotates (O22): each by number, then on A and on memory. -/

namespace Sys2Proof.Machine

/-! ### The shifts by number -/

/-- A result and the bit shifted out, with Z and N of the result (R200). -/
def shiftResult (r : Nat) (c : Bool) (p : Flags) : Byte × Flags :=
  (BitVec.ofNat 8 r, { p with c := c, z := decide (r = 0), n := decide (128 ≤ r) })

/-- What `setZN` makes of a shifted byte and its carry, by the byte's number. -/
theorem setZN_eq_shiftResult {r : Byte} {k : Nat} (h : r.toNat = k) (c : Bool) (p : Flags) :
    (r, { p with c := c }.setZN r) = shiftResult k c p := by
  subst h
  have hr : BitVec.ofNat 8 r.toNat = r := by rw [BitVec.ofNat_toNat, BitVec.setWidth_eq]
  have hz := Flags.setZN_ofNat { p with c := c } r.toNat
  rw [hr, Nat.mod_eq_of_lt r.isLt] at hz
  rw [shiftResult, hr, hz]

theorem toNat_ofBit (b : Bool) : (ofBit b).toNat = b.toNat := by
  cases b <;> rfl

theorem bit_zero_eq_decide (v : Byte) : bit v 0 = decide (v.toNat % 2 = 1) := Nat.testBit_zero v.toNat

theorem bit_seven_eq_decide (v : Byte) : bit v 7 = decide (128 ≤ v.toNat) := by
  rw [bit_seven, BitVec.msb_eq_decide]

theorem toNat_shiftLeft_one (v : Byte) : (v <<< 1).toNat = v.toNat * 2 % 256 := by
  rw [BitVec.toNat_shiftLeft, Nat.shiftLeft_eq]

theorem toNat_shiftRight_one (v : Byte) : (v >>> 1).toNat = v.toNat / 2 := by
  rw [BitVec.toNat_ushiftRight, Nat.shiftRight_eq_div_pow]

/-- The carry fills the bit that the shift to the left vacates (R203). -/
theorem toNat_shiftLeft_or_carry (v : Byte) (c : Bool) :
    ((v <<< 1) ||| ofBit c).toNat = (v.toNat * 2 + c.toNat) % 256 := by
  have hdisjoint : (v <<< 1) &&& ofBit c = 0 := by
    cases c with
    | false => exact BitVec.and_zero
    | true =>
      ext k
      simp +contextual [ofBit]
  rw [← BitVec.add_eq_or_of_and_eq_zero _ _ hdisjoint, BitVec.toNat_add, toNat_shiftLeft_one, toNat_ofBit,
    Nat.mod_add_mod]

/-- The carry fills the bit that the shift to the right vacates (R204). -/
theorem toNat_shiftRight_or_carry (v : Byte) (c : Bool) :
    ((v >>> 1) ||| (ofBit c <<< 7)).toNat = v.toNat / 2 + 128 * c.toNat := by
  have hdisjoint : (v >>> 1) &&& (ofBit c <<< 7) = 0 := by
    ext k hk
    obtain hlow | rfl : k < 7 ∨ k = 7 := by omega
    · simp [hlow]
    · simp
  have hv := v.isLt
  have hc := c.toNat_lt
  rw [← BitVec.add_eq_or_of_and_eq_zero _ _ hdisjoint, BitVec.toNat_add, toNat_shiftRight_one,
    BitVec.toNat_shiftLeft, toNat_ofBit, Nat.shiftLeft_eq]
  omega

/-- ASL by number (R201). -/
theorem shiftLeft_eq (v : Byte) (p : Flags) :
    shiftLeft v p = shiftResult (v.toNat * 2 % 256) (decide (128 ≤ v.toNat)) p := by
  rw [← bit_seven_eq_decide]
  exact setZN_eq_shiftResult (toNat_shiftLeft_one v) _ p

/-- LSR by number (R202). -/
theorem shiftRight_eq (v : Byte) (p : Flags) :
    shiftRight v p = shiftResult (v.toNat / 2) (decide (v.toNat % 2 = 1)) p := by
  rw [← bit_zero_eq_decide]
  exact setZN_eq_shiftResult (toNat_shiftRight_one v) _ p

/-- ROL by number (R203). -/
theorem rotateLeft_eq (v : Byte) (p : Flags) :
    rotateLeft v p = shiftResult ((v.toNat * 2 + p.c.toNat) % 256) (decide (128 ≤ v.toNat)) p := by
  rw [← bit_seven_eq_decide]
  exact setZN_eq_shiftResult (toNat_shiftLeft_or_carry v p.c) _ p

/-- ROR by number (R204). -/
theorem rotateRight_eq (v : Byte) (p : Flags) :
    rotateRight v p = shiftResult (v.toNat / 2 + 128 * p.c.toNat) (decide (v.toNat % 2 = 1)) p := by
  rw [← bit_zero_eq_decide]
  exact setZN_eq_shiftResult (toNat_shiftRight_or_carry v p.c) _ p

/-! ### The Accumulator forms -/

/-- A read-modify-write of A touches A and the flags alone. -/
theorem modify_accumulator (opcode : Byte) {f : Byte → Flags → Byte × Flags} {s : State} {r : Byte} {p : Flags}
    (h : f s.a s.p = (r, p)) : modify opcode f .accumulator s = .next { s with a := r, p := p } := by
  have hdone : modify opcode f .accumulator s = _ := modify_of_done rfl rfl
  have hstep : s.pc + Operand.accumulator.step = s.pc := BitVec.add_zero s.pc
  rw [hdone, h, advance, State.setP_pc, State.setA_pc, hstep]
  rfl

/-- Each Accumulator form is its row and the shift of A. -/
theorem exec_accumulatorShift {i : Instr} {opcode : Byte} {r : Nat} {c : Bool} {s : State}
    (h : (i, opcode, r, c) ∈ accumulatorShiftTable s.a.toNat s.p.c) :
    tableRow i = (opcode, .accumulator, 2) ∧
    exec i s =
      .next { s with
        a := BitVec.ofNat 8 r
        p := { s.p with c := c, z := decide (r = 0), n := decide (128 ≤ r) } } := by
  simp only [accumulatorShiftTable, List.mem_cons, Prod.mk.injEq, List.not_mem_nil, or_false] at h
  rcases h with ⟨rfl, rfl, rfl, rfl⟩ | ⟨rfl, rfl, rfl, rfl⟩ | ⟨rfl, rfl, rfl, rfl⟩ | ⟨rfl, rfl, rfl, rfl⟩
  · exact ⟨rfl, modify_accumulator 0x0A (shiftLeft_eq s.a s.p)⟩
  · exact ⟨rfl, modify_accumulator 0x4A (shiftRight_eq s.a s.p)⟩
  · exact ⟨rfl, modify_accumulator 0x2A (rotateLeft_eq s.a s.p)⟩
  · exact ⟨rfl, modify_accumulator 0x6A (rotateRight_eq s.a s.p)⟩

/-! ### The memory forms -/

/-- The operation of a shift's mnemonic (R201-R204). -/
def shiftTable : List (Mnemonic × (Byte → Flags → Byte × Flags)) :=
  [(.asl, shiftLeft), (.lsr, shiftRight), (.rol, rotateLeft), (.ror, rotateRight)]

/-- A shift from its result and bit shifted out as the rules' table has them. -/
def shiftBy (op : Nat → Bool → Nat × Bool) (v : Byte) (p : Flags) : Byte × Flags :=
  shiftResult (op v.toNat p.c).1 (op v.toNat p.c).2 p

/-- The table's number functions are the model's operations. -/
theorem lookup_memoryShift : ∀ e ∈ memoryShiftTable,
    memoryShiftTable.lookup e.1 = some e.2 ∧ shiftTable.lookup e.1 = some (shiftBy e.2.1) := by
  simp only [memoryShiftTable, List.forall_mem_cons]
  exact ⟨⟨rfl, congrArg some (funext₂ shiftLeft_eq)⟩, ⟨rfl, congrArg some (funext₂ shiftRight_eq)⟩,
    ⟨rfl, congrArg some (funext₂ rotateLeft_eq)⟩, ⟨rfl, congrArg some (funext₂ rotateRight_eq)⟩, nofun⟩

/-- Every memory form is its row and the read-modify-write of its mnemonic's operation at its operand. -/
theorem exec_memoryShift {i : Instr} {o : Operand} {f : Byte → Flags → Byte × Flags}
    {e : (Nat → Bool → Nat × Bool) × List Row}
    (ho : i.operand = some o) (hne : o ≠ .accumulator) (hf : shiftTable.lookup i.info.mnemonic = some f)
    (h : memoryShiftTable.lookup i.info.mnemonic = some e) :
    tableRow i ∈ e.2 ∧ ∀ s, exec i s = modify i.info.opcode f o s := by
  cases i with
  | aslA | lsrA | rolA | rorA =>
    cases ho
    exact absurd rfl hne
  | aslZp _ | aslZpX _ | lsrZp _ | lsrZpX _ | rolZp _ | rolZpX _ | rorZp _ | rorZpX _ =>
    cases ho
    cases hf
    cases h
    exact ⟨of_decide_eq_true rfl, fun _ => rfl⟩
  | aslAbs w | lsrAbs w | rolAbs w | rorAbs w =>
    cases ho.symm.trans (Operand.ofMode_absolute w)
    cases hf
    cases h
    exact ⟨of_decide_eq_true rfl, fun _ => rfl⟩
  | aslAbsX w | lsrAbsX w | rolAbsX w | rorAbsX w =>
    cases ho.symm.trans (Operand.ofMode_absoluteX w)
    cases hf
    cases h
    exact ⟨of_decide_eq_true rfl, fun _ => rfl⟩
  | _ => cases h

/-- A read-modify-write at an address: one read and one write there, which completes because no readable
address starts a DMA, or the fault of the read. -/
theorem exec_of_modify_memory {i : Instr} {o : Operand} {ea : Addr} {s : State} {f : Byte → Flags → Byte × Flags}
    (ho : i.operand = some o) (hp : place o s = .memory ea) (hx : exec i s = modify i.info.opcode f o s) :
    (readable ea = true → ∃ v u w, busRead ea s = .done v u ∧ busWrite ea (f v s.p).1 u = .done () w ∧
      exec i s = .next { w with p := (f v s.p).2, pc := s.pc + operandBytes i }) ∧
    (readable ea = false → ∃ e, busRead ea s = .raised e ∧ exec i s = .fault e) := by
  have hread : modeRead (place o s) s = busRead ea s := by rw [hp]; rfl
  refine ⟨fun hr => ?_, fun hr => ?_⟩
  · obtain ⟨v, u, hu⟩ := busRead_of_readable s hr
    have hdma : ea ≠ 0x4014 := by
      rintro rfl
      exact absurd hr (by decide)
    obtain ⟨w, hw⟩ := busWrite_of_ne_dma (f v s.p).1 u hdma
    have hflags : u.p = s.p := by rw [busRead_keeps hu]
    have hwpc : w.pc = s.pc := by rw [busWrite_keeps hw, busRead_keeps hu]
    obtain ⟨-, hrel⟩ := Operand.mode_of_memory ho hp
    have hwrite : modeWrite i.info.opcode (place o s) (f v u.p).1 u = .done () w := by
      rw [hp, hflags]
      exact hw
    refine ⟨v, u, w, hu, hw, ?_⟩
    rw [hx, modify_of_done (hread.trans hu) hwrite, hflags, advance, State.setP_pc, hwpc,
      step_eq_operandBytes ho hrel]
    rfl
  · obtain ⟨e, he⟩ := busRead_of_not_readable s hr
    exact ⟨e, he, hx.trans (modify_of_raised (hread.trans he))⟩

/-- No memory form is in a mode without an effective address. -/
theorem memoryShiftTable_mode : ∀ e ∈ memoryShiftTable, ∀ row ∈ e.2.2,
    row.2.1 ∉ ([.accumulator, .immediate, .relative] : List AddrMode) := by decide

/-- Settles O22: A takes its shift, and a memory form is the read-modify-write of the same shift at its address. -/
theorem shiftsAndRotates : Obligations.ShiftsAndRotates := by
  refine ⟨fun _ _ _ _ _ => exec_accumulatorShift, fun i o op rows s ho hne h => ?_⟩
  obtain ⟨hentry, hshift⟩ := lookup_memoryShift _ h
  obtain ⟨hrow, hx⟩ := exec_memoryShift ho hne hshift hentry
  obtain ⟨ea, hp⟩ := Operand.place_eq_memory ho (memoryShiftTable_mode _ h _ hrow) s
  have hmodify := exec_of_modify_memory ho hp (hx s)
  exact ⟨hrow, ea, hp, hmodify⟩

end Sys2Proof.Machine
end

section
/-! Control transfer (O24, O25, O26, O27): branches, jumps, the call and the returns. -/

namespace Sys2Proof.Machine

/-! ### Branches -/

/-- A branch as one update of PC, its displacement added modulo 65536 (R210). -/
theorem branch_eq (taken : Bool) (d : Byte) (s : State) :
    branch taken d s =
      .next { s with pc := BitVec.ofInt 16 (s.pc.toNat + 1 + if taken then d.toInt else 0) } := by
  have hpast : BitVec.ofInt 16 (s.pc.toNat + 1) = s.pc + 1 := by
    rw [BitVec.ofInt_add, BitVec.ofInt_natCast, BitVec.ofNat_toNat, BitVec.setWidth_eq]
    rfl
  rw [BitVec.ofInt_add, hpast]
  cases taken with
  | true => rfl
  | false => exact congrArg (fun w => Host.Outcome.next (s.setPc w)) (BitVec.add_zero (s.pc + 1)).symm

/-- Settles O24: each branch is its row and the branch on its condition. -/
theorem branchesMoveOnlyThePc : Obligations.BranchesMoveOnlyThePc := by
  intro i opcode d taken s h
  rw [← branch_eq]
  simp only [branchTable, List.mem_cons, Prod.mk.injEq, List.not_mem_nil, or_false] at h
  rcases h with ⟨rfl, rfl, rfl⟩ | ⟨rfl, rfl, rfl⟩ | ⟨rfl, rfl, rfl⟩ | ⟨rfl, rfl, rfl⟩ | ⟨rfl, rfl, rfl⟩ |
    ⟨rfl, rfl, rfl⟩ | ⟨rfl, rfl, rfl⟩ | ⟨rfl, rfl, rfl⟩ <;>
    exact ⟨rfl, rfl, rfl⟩

/-! ### Jumps -/

/-- The address after a pointer, its carry out of the page dropped (R220). -/
theorem nextInPage_eq_ofNat (w : Addr) :
    (w &&& 0xFF00) ||| ((w + 1) &&& 0x00FF) = BitVec.ofNat 16 (w.toNat / 256 * 256 + (w.toNat + 1) % 256) := by
  have hword : (w &&& 0xFF00) ||| ((w + 1) &&& 0x00FF) = word (hi w) (lo (w + 1)) := by
    generalize w + 1 = v
    ext k hk
    rw [word, hi, lo]
    interval_cases k <;> simp
  have hlo : (lo (w + 1)).toNat = (w.toNat + 1) % 256 := by
    rw [toNat_lo, add_one_eq_ofNat, BitVec.toNat_ofNat]
    omega
  rw [hword, word_eq_ofNat, toNat_hi, hlo]

/-- Settles O25: the indirect jump's two reads one after the other, by whether each completes. -/
theorem jumpsSetThePc : Obligations.JumpsSetThePc := by
  intro w s
  refine ⟨rfl, rfl, rfl, rfl, rfl, ?_⟩
  rw [← nextInPage_eq_ofNat]
  intro next
  have hx : exec (.jmpInd w) s = (busRead w s).andThen fun l u =>
      (busRead next u).andThen fun h v => .next (v.setPc (word h l)) := rfl
  refine ⟨fun hw hnext => ?_, fun hw => ?_, fun hw hnext => ?_⟩
  · obtain ⟨l, u, hl⟩ := busRead_of_readable s hw
    obtain ⟨h, v, hh⟩ := busRead_of_readable u hnext
    refine ⟨l, u, h, v, hl, hh, ?_⟩
    rw [hx, hl, Access.andThen_of_done, hh, Access.andThen_of_done, word_eq_ofNat]
    rfl
  · obtain ⟨f, hf⟩ := busRead_of_not_readable s hw
    exact ⟨f, hf, by rw [hx, hf, Access.andThen_of_raised]⟩
  · obtain ⟨l, u, hl⟩ := busRead_of_readable s hw
    obtain ⟨f, hf⟩ := busRead_of_not_readable u hnext
    exact ⟨l, u, f, hl, hf, by rw [hx, hl, Access.andThen_of_done, hf, Access.andThen_of_raised]⟩

/-! ### Subroutine call -/

/-- A pushed word as one update: the high byte in the slot SP names, the low byte in the one below (R221). -/
theorem pushWord_eq (w : Addr) (s : State) :
    pushWord w s =
      { s with
        sp := s.sp - 2
        ram := Memory.write (Memory.write s.ram (0x100 + s.sp.toNat) (hi w)) (0x100 + (s.sp - 1).toNat) (lo w) } := by
  have hsp : s.sp - 1 - 1 = s.sp - 2 := by bv_omega
  simp only [pushWord, push_eq, hsp]

/-- What RAM reads as after a push of a word, whose two slots differ also where SP wraps. -/
theorem read_pushWord (w : Addr) (s : State) (k : Nat) :
    Memory.read (pushWord w s).ram k =
      if k = 0x100 + s.sp.toNat then hi w
      else if k = 0x100 + (s.sp - 1).toNat then lo w
      else Memory.read s.ram k := by
  have hslots : 0x100 + (s.sp - 1).toNat ≠ 0x100 + s.sp.toNat := by bv_omega
  simp only [pushWord_eq, Memory.read_write, eq_comm (b := k)]
  by_cases hk : k = 0x100 + s.sp.toNat
  · rw [if_neg (by omega), if_pos hk, if_pos hk]
  · rw [if_neg hk, if_neg hk]

/-- Settles O26: the call is the push of its last byte's address and the jump. -/
theorem jsrPushesItsLastByteAddress : Obligations.JsrPushesItsLastByteAddress := by
  intro w s
  refine ⟨rfl, rfl, (pushWord (s.pc + 1) s).setPc w, rfl, ?_, read_pushWord (s.pc + 1) s⟩
  rw [pushWord_eq]
  rfl

/-! ### Returns -/

/-- The byte of page 1 that lies `k` above SP, modulo 256 (R22, R56). -/
def State.slot (s : State) (k : Nat) : Byte := Memory.read s.ram (0x100 + (s.sp.toNat + k) % 256)

/-- After `j` pulls the slots are those `j` further up. -/
theorem State.slot_of_sp_add {s u : State} (j k : Nat) (hram : u.ram = s.ram)
    (hsp : u.sp = s.sp + BitVec.ofNat 8 j) : u.slot k = s.slot (j + k) := by
  have hindex : ((s.sp.toNat + j % 256) % 256 + k) % 256 = (s.sp.toNat + (j + k)) % 256 := by omega
  rw [slot, slot, hram, hsp, BitVec.toNat_add, BitVec.toNat_ofNat, hindex]

/-- A pull takes the slot above SP (R56). -/
theorem pull_eq_slot (s : State) : pull s = (s.slot 1, { s with sp := s.sp + 1 }) := pull_eq s

/-- A pulled word is the two slots above SP, the low byte in the lower one (R222, R223). -/
theorem pullWord_eq_slots (s : State) :
    pullWord s = (word (s.slot 2) (s.slot 1), { s with sp := s.sp + 2 }) := by
  have hhigh : State.slot { s with sp := s.sp + 1 } 1 = s.slot 2 := State.slot_of_sp_add 1 1 rfl rfl
  have hsp : s.sp + 1 + 1 = s.sp + 2 := by bv_omega
  simp only [pullWord, pull_eq_slot, hhigh, hsp]

/-- The return from an interrupt as one update (R223, R265). -/
theorem returnFromInterrupt_eq (s : State) :
    returnFromInterrupt s =
      { s with p := Flags.ofByte (s.slot 1), sp := s.sp + 3, pc := word (s.slot 3) (s.slot 2) } := by
  have hslot (k : Nat) : (State.setP { s with sp := s.sp + 1 } (Flags.ofByte (s.slot 1))).slot k = s.slot (1 + k) :=
    State.slot_of_sp_add 1 k rfl rfl
  have hsp : s.sp + 1 + 2 = s.sp + 3 := by bv_omega
  simp only [returnFromInterrupt, pull_eq_slot, pullWord_eq_slots, hslot, State.setP_sp, hsp]
  rfl

/-- Settles O27: the return from a call is the pull of a word, the return from an interrupt the pull of the
status byte and a word. -/
theorem returnsPullThePc : Obligations.ReturnsPullThePc := by
  intro s slot
  refine ⟨rfl, ?_, rfl, ?_⟩
  · have hx : exec .rts s = .next ((pullWord s).2.setPc ((pullWord s).1 + 1)) := rfl
    have hnext : word (s.slot 2) (s.slot 1) + 1 =
        BitVec.ofNat 16 ((s.slot 2).toNat * 256 + (s.slot 1).toNat + 1) := by
      rw [word_eq_ofNat]
      exact (BitVec.ofNat_add _ 1).symm
    simp only [hx, pullWord_eq_slots, hnext]
    rfl
  · have hx : exec .rti s = .next (returnFromInterrupt s) := rfl
    rw [hx, returnFromInterrupt_eq, word_eq_ofNat]
    rfl

end Sys2Proof.Machine
end

section
/-! The stack, flag and no-operation instructions (O28, O29, O30, O31): each is one push, one pull, one write
of the flags, or a step over its operand bytes. -/

namespace Sys2Proof.Machine

/-! ### Pushes -/

/-- A push changes SP and RAM alone, and RAM only in the slot SP names (R55). -/
theorem push_frame (v : Byte) (s : State) :
    push v s = { s with sp := s.sp - 1, ram := (push v s).ram } ∧
    ∀ k, Memory.read (push v s).ram k = if k = 0x100 + s.sp.toNat then v else Memory.read s.ram k := by
  rw [push_eq]
  refine ⟨rfl, fun k => ?_⟩
  simp only [Memory.read_write, eq_comm (b := k)]

/-- Settles O28: each is its row and the push of its byte, the status byte by number. -/
theorem pushesWriteOneStackByte : Obligations.PushesWriteOneStackByte := by
  intro i opcode v s h
  simp only [pushTable, List.mem_cons, Prod.mk.injEq, List.not_mem_nil, or_false] at h
  rcases h with ⟨rfl, rfl, rfl⟩ | ⟨rfl, rfl, rfl⟩
  · exact ⟨rfl, push s.a s, rfl, push_frame s.a s⟩
  · refine ⟨rfl, push _ s, ?_, push_frame _ s⟩
    have hx : exec .php s = .next (push (s.p.toByte true) s) := rfl
    rw [hx, Flags.toByte_eq]
    rfl

/-! ### Pulls -/

/-- Settles O29: PLA is the transfer of the pulled byte to A, PLP the pulled byte as flags. -/
theorem pullsReadOneStackByte : Obligations.PullsReadOneStackByte := by
  intro s b
  refine ⟨rfl, rfl, ?_, ?_⟩
  · have hx : exec .pla s = .next (setZN (pull s).1 ((pull s).2.setReg .a (pull s).1)) := rfl
    rw [hx, pull_eq, setZN_setReg]
    rfl
  · have hx : exec .plp s = .next ((pull s).2.setP (Flags.ofByte (pull s).1)) := rfl
    rw [hx, pull_eq]
    rfl

/-! ### Flag instructions -/

/-- Settles O30: each is its row and the one flag written. -/
theorem flagInstructionsWriteOneFlag : Obligations.FlagInstructionsWriteOneFlag := by
  intro i opcode p s h
  simp only [flagTable, List.mem_cons, Prod.mk.injEq, List.not_mem_nil, or_false] at h
  rcases h with ⟨rfl, rfl, rfl⟩ | ⟨rfl, rfl, rfl⟩ | ⟨rfl, rfl, rfl⟩ | ⟨rfl, rfl, rfl⟩ | ⟨rfl, rfl, rfl⟩ |
    ⟨rfl, rfl, rfl⟩ | ⟨rfl, rfl, rfl⟩ <;>
    exact ⟨rfl, rfl⟩

/-! ### No-operations -/

/-- Each mnemonic of the table has one entry in it (R242, R243). -/
theorem lookup_nopTable : ∀ e ∈ nopTable, nopTable.lookup e.1 = some e.2 := by
  simp only [nopTable, List.forall_mem_cons]
  exact ⟨rfl, rfl, nofun⟩

/-- A NOP or NOP* is one of the rows of its mnemonic; an Implied form leaves the state as it is, the others step
over their operand (R242, R243). -/
theorem exec_noOperation {i : Instr} {rows : List Row} (h : nopTable.lookup i.info.mnemonic = some rows)
    (s : State) : tableRow i ∈ rows ∧ exec i s = .next (s.setPc (s.pc + operandBytes i)) := by
  have hstay : Host.Outcome.next s = (.next (s.setPc (s.pc + 0)) : Outcome) :=
    congrArg (fun w => Host.Outcome.next (s.setPc w)) (BitVec.add_zero s.pc).symm
  cases i with
  | nop | nopU1A | nopU3A | nopU5A | nopU7A | nopUDA | nopUFA =>
    cases h
    exact ⟨of_decide_eq_true rfl, hstay⟩
  | nopU80 _ | nopU82 _ | nopU89 _ | nopUC2 _ | nopUE2 _ | nopU04 _ | nopU44 _ | nopU64 _ | nopU14 _ | nopU34 _
  | nopU54 _ | nopU74 _ | nopUD4 _ | nopUF4 _ | nopU0C _ | nopU1C _ | nopU3C _ | nopU5C _ | nopU7C _ | nopUDC _
  | nopUFC _ =>
    cases h
    exact ⟨of_decide_eq_true rfl, rfl⟩
  | _ => cases h

/-- Settles O31: a no-operation is its row and the step over its operand bytes. -/
theorem noOperationsMoveOnlyThePc : Obligations.NoOperationsMoveOnlyThePc :=
  fun _ _ s h => exec_noOperation (lookup_nopTable _ h) s

end Sys2Proof.Machine
end

section
/-! The NMI: its sample, its entry and the return from it (O50, O51, O52). -/

namespace Sys2Proof.Machine

/-! ### The sample -/

/-- The sample enters the NMI exactly when the line has risen since the sample before (R261). -/
theorem takeNmi_eq (s : State) :
    takeNmi s =
      if nmiLine s = true ∧ s.nmiPrev = false then nmiEntry { s with nmiPrev := nmiLine s }
      else { s with nmiPrev := nmiLine s } := by
  simp only [takeNmi, nmiSample, Bool.and_eq_true, Bool.not_eq_true']
  rfl

/-- With no NMI due, the sample only takes the line (R261). -/
theorem takeNmi_of_not_due {s : State} (h : (nmiLine s && !s.nmiPrev) = false) :
    takeNmi s = { s with nmiPrev := nmiLine s } := by
  rw [takeNmi_eq, if_neg (by simpa using h)]

/-- Settles O50: a counting step, or the sample with its entry and the fetch after it. -/
theorem nmiIsTakenOnTheRisingEdge : Obligations.NmiIsTakenOnTheRisingEdge := by
  refine fun s => ⟨fun n h => cpuStep_counting h, fun h => ?_⟩
  rw [cpuStep_boundary h, takeNmi_eq]
  split
  · exact (if_pos ‹_›).symm
  · exact (if_neg ‹_›).symm

/-! ### The entry -/

section
variable (a : Addr) (s : State) (sp : Byte) (ram : Memory) (p : Flags)

/-- A mapper read looks at neither the stack nor the flags. -/
theorem mapperRead_stack :
    mapperRead a { s with sp := sp, ram := ram, p := p } =
      ((mapperRead a s).1, { (mapperRead a s).2 with sp := sp, ram := ram, p := p }) := by
  by_cases hu : (∃ k, s.mapper = .unsupported k) ∨ prgIndex s.cart s.params a = none
  · rw [mapperRead_of_unmapped hu]
    exact mapperRead_of_unmapped hu
  · rw [not_or, not_exists] at hu
    obtain ⟨i, hi⟩ := Option.ne_none_iff_exists'.1 hu.2
    rw [mapperRead_of_index hu.1 hi]
    exact mapperRead_of_index hu.1 hi

/-- Nor does a vector read. -/
theorem readVector_stack :
    readVector a { s with sp := sp, ram := ram, p := p } =
      ((readVector a s).1, { (readVector a s).2 with sp := sp, ram := ram, p := p }) := by
  simp only [readVector, mapperRead_stack]

end

/-- NMI entry as one update, its vector read in the state before the pushes (R262). -/
theorem nmiEntry_eq_readVector (s : State) :
    nmiEntry s =
      { s with
        sp := s.sp - 3, ram := (push (s.p.toByte false) (pushWord s.pc s)).ram, p := { s.p with i := true }
        pc := (readVector nmiVector s).1, draws := (readVector nmiVector s).2.draws } := by
  have ht : (push (s.p.toByte false) (pushWord s.pc s)).setP { s.p with i := true } =
      { s with
        sp := s.sp - 3, ram := (push (s.p.toByte false) (pushWord s.pc s)).ram, p := { s.p with i := true } } := by
    rw [pushWord, push3_frame]
    rfl
  simp only [nmiEntry_eq, ht, readVector_stack]

/-- What RAM reads as after an NMI entry, whose three slots differ also where SP wraps (R262). -/
theorem read_nmiEntry (s : State) (k : Nat) :
    Memory.read (nmiEntry s).ram k =
      if k = 0x100 + s.sp.toNat then hi s.pc
      else if k = 0x100 + (s.sp - 1).toNat then lo s.pc
      else if k = 0x100 + (s.sp - 2).toNat then s.p.toByte false
      else Memory.read s.ram k := by
  have hsp : (pushWord s.pc s).sp = s.sp - 2 := by rw [pushWord_eq]
  have hslots : (s.sp - 2).toNat ≠ s.sp.toNat ∧ (s.sp - 2).toNat ≠ (s.sp - 1).toNat := by
    constructor <;> bv_omega
  rw [nmiEntry_eq_readVector]
  simp only [(push_frame _ _).2 k, hsp, read_pushWord]
  by_cases hk : k = 0x100 + (s.sp - 2).toNat
  · rw [if_pos hk, if_neg (by omega), if_neg (by omega), if_pos hk]
  · simp only [if_neg hk]

/-- Settles O51: the three pushes, and the vector read as a two-byte bus read. -/
theorem nmiEntryPushesThenVectors : Obligations.NmiEntryPushesThenVectors := by
  intro s t
  refine ⟨_, _, readVector_is_busRead16 s (by decide) (by decide), ?_, fun k => ?_⟩
  · have ht := nmiEntry_eq_readVector s
    have hram : t.ram = _ := congrArg State.ram ht
    rw [hram]
    exact ht
  · have hstatus := s.p.toByte_eq false
    exact hstatus ▸ read_nmiEntry s k

/-! ### The return -/

/-- The slots above SP after an NMI entry: the status byte and PC (R262). -/
theorem slot_nmiEntry (s : State) :
    (nmiEntry s).slot 1 = s.p.toByte false ∧ (nmiEntry s).slot 2 = lo s.pc ∧ (nmiEntry s).slot 3 = hi s.pc := by
  have hsp : (nmiEntry s).sp = s.sp - 3 := by rw [nmiEntry_eq]
  have h1 : ((s.sp - 3).toNat + 1) % 256 = (s.sp - 2).toNat := by bv_omega
  have h2 : ((s.sp - 3).toNat + 2) % 256 = (s.sp - 1).toNat := by bv_omega
  have h3 : ((s.sp - 3).toNat + 3) % 256 = s.sp.toNat := by bv_omega
  have hne : (s.sp - 2).toNat ≠ s.sp.toNat ∧ (s.sp - 2).toNat ≠ (s.sp - 1).toNat ∧
      (s.sp - 1).toNat ≠ s.sp.toNat := by
    refine ⟨?_, ?_, ?_⟩ <;> bv_omega
  obtain ⟨h20, h21, h10⟩ := hne
  simp only [State.slot, hsp, h1, h2, h3, read_nmiEntry, Nat.add_left_cancel_iff, h20, h21, h10, if_true, if_false,
    and_self]

/-- Settles O52: the return pulls what the entry pushed. -/
theorem rtiUndoesTheNmiEntry : Obligations.RtiUndoesTheNmiEntry := by
  intro s pc
  have hx : exec .rti { nmiEntry s with pc := pc } = .next (returnFromInterrupt { nmiEntry s with pc := pc }) := rfl
  obtain ⟨hstatus, hlow, hhigh⟩ := slot_nmiEntry s
  refine ⟨_, hx, ?_⟩
  rw [returnFromInterrupt_eq]
  refine ⟨?_, ?_, ?_, ?_⟩
  · calc word ((nmiEntry s).slot 3) ((nmiEntry s).slot 2)
      _ = s.pc := by rw [hhigh, hlow, word_hi_lo]
  · calc (nmiEntry s).sp + 3
      _ = s.sp := by rw [nmiEntry_eq]; bv_omega
  · calc Flags.ofByte ((nmiEntry s).slot 1)
      _ = s.p := by rw [hstatus, Flags.ofByte_toByte]
  · calc (nmiEntry s).nmiPrev
      _ = s.nmiPrev := by rw [nmiEntry_eq]

end Sys2Proof.Machine
end

section
/-! The OAM DMA is the one write that can fault (O38). -/

namespace Sys2Proof.Machine

/-- Settles O38: a write of $4014 is the DMA of its page, which completes exactly from a page that can be read. -/
theorem writesFaultOnlyThroughTheDma : Obligations.WritesFaultOnlyThroughTheDma :=
  ⟨fun _ v s h => busWrite_of_ne_dma v s h, fun page s =>
    ⟨fun h => busWrite_completes page s (.inr h), fun h => oamDma_faults h s⟩⟩

end Sys2Proof.Machine
end

section
/-! The fetch of an opcode without an entry, and the step that runs the instruction at PC (O5, O7). -/

namespace Sys2Proof.Machine

/-! ### An opcode without a dispatch entry -/

/-- A step whose opcode has no entry faults, with PC past the opcode (R251). -/
theorem cpuStep_of_no_entry {s u : State} {opcode : Byte} (h : s.cyclesRemaining = 0)
    (hr : busRead (takeNmi s).pc (takeNmi s) = .done opcode u) (he : entryOf u.params opcode = none) :
    cpuStep s = .fault (raise (.unimplementedOpcode opcode u.instrCount) (u.setPc (u.pc + 1))) := by
  rw [cpuStep_boundary h, fetch, hr]
  simp only [Access.bind_of_done, State.setPc_params, State.setPc_instrCount, he, Access.andThen_of_raised]

/-- Settles O5: an opcode outside `ILLEGAL_NOPS` or outside the opcode map has no entry. -/
theorem unlistedOpcodeRaisesItsFault : Obligations.UnlistedOpcodeRaisesItsFault := by
  intro s u opcode h hr hu
  have he : entryOf u.params opcode = none := by
    rcases hu with hadmits | hdecode
    · exact if_neg (by simp [hadmits])
    · have hd : dispatch opcode = none := (decode_unimplemented_iff opcode []).1 (hdecode [])
      rw [entryOf, hd, ite_self]
  exact cpuStep_of_no_entry h hr he

/-! ### The instruction whose encoding stands at PC -/

/-- Two stored bytes are read as the word they spell, with no effect (R51, R58). -/
theorem busRead16_of_peek {a : Addr} {s : State} {l h : Byte} (hl : peek s a = some l)
    (hh : peek s (a + 1) = some h) : busRead16 a s = .done (word h l) s := by
  have hrl := busRead_of_peek hl
  have hrh := busRead_of_peek hh
  by_cases ha : a.toNat < 0x2000
  · have ha1 : (a + 1).toNat < 0x2000 := by
      by_contra hge
      have hnone : peek s (a + 1) = none := (peek_eq_none_iff (by omega)).2 (.inl (by bv_omega))
      rw [hnone] at hh
      cases hh
    rw [busRead_ram ha] at hrl
    rw [busRead_ram ha1] at hrh
    cases hrl
    cases hrh
    exact busRead16_ram ha
  · simp only [busRead16_bus ha, hrl, hrh, Access.bind_of_done]

/-- An opcode's entry, with PC at the stored operand bytes of an instruction of that opcode, leads to the
instruction and changes nothing before it (R124, R243). -/
theorem execute_fetchOperand {i : Instr} {e : Entry} {s : State} (he : dispatch i.info.opcode = some e)
    (hp : ∀ k b, i.info.operand[k]? = some b → peek s (s.pc + BitVec.ofNat 16 k) = some b) :
    (fetchOperand e s).andThen execute = execute i s := by
  cases entryShape i with
  | f1 hd _ =>
    cases he.symm.trans hd
    rfl
  | f2 make b hm hd ho _ =>
    cases he.symm.trans hd
    have hb : peek s s.pc = some b := by simpa using hp 0 b (by rw [ho]; rfl)
    simp only [fetchOperand, busRead_of_peek hb, Access.bind_of_done, Access.andThen_of_done, hm]
  | f3 make w hm hd ho _ =>
    cases he.symm.trans hd
    have hl : peek s s.pc = some (lo w) := by simpa using hp 0 (lo w) (by rw [ho]; rfl)
    have hh : peek s (s.pc + 1) = some (hi w) := hp 1 (hi w) (by rw [ho]; rfl)
    simp only [fetchOperand, busRead16_of_peek hl hh, word_hi_lo, Access.bind_of_done, Access.andThen_of_done, hm]
  | skip2 make b _ hd _ _ hx =>
    cases he.symm.trans hd
    exact hx 0 s
  | skip3 make w _ hd _ _ hx =>
    cases he.symm.trans hd
    exact hx 0 s

/-- A CPU step at a boundary with no NMI due runs the instruction whose encoding stands at PC (R121, R271). -/
theorem cpuStep_of_holdsAtPc {s : State} {i : Instr} (h : s.cyclesRemaining = 0)
    (hn : (nmiLine s && !s.nmiPrev) = false) (hw : i.wellFormed s.params = true) (hp : s.holdsAtPc i) :
    cpuStep s = execute i { s with nmiPrev := nmiLine s, pc := s.pc + 1 } := by
  have ht := takeNmi_of_not_due hn
  obtain ⟨e, hd, -⟩ := i.exists_entry_makes
  have hop : peek s s.pc = some i.info.opcode := by simpa using hp 0 i.info.opcode rfl
  have hr : busRead (takeNmi s).pc (takeNmi s) = .done i.info.opcode (takeNmi s) := by
    rw [ht]
    exact busRead_of_peek hop
  have he : entryOf (takeNmi s).params i.info.opcode = some e := by
    rw [ht]
    exact (entryOf_of_wellFormed hw).trans hd
  rw [cpuStep_of_entry h hr he, ht]
  refine execute_fetchOperand hd fun k b hb => ?_
  have hnext : s.pc + 1 + BitVec.ofNat 16 k = s.pc + BitVec.ofNat 16 (k + 1) := by
    rw [BitVec.add_assoc, BitVec.add_comm 1, BitVec.ofNat_add]
    rfl
  simp only [hnext]
  exact hp (k + 1) b hb

/-- Settles O7: the tick of a starting state is the CPU step after the video step, which changes no stored byte. -/
theorem stepRunsTheDecodedInstruction : Obligations.StepRunsTheDecodedInstruction := by
  rintro s i ⟨hh, hk, hc⟩ hn hw hp
  have hcpu : cpuStep (videoStep s) =
      execute i { videoStep s with nmiPrev := nmiLine (videoStep s), pc := s.pc + 1 } :=
    cpuStep_of_holdsAtPc hc hn hw hp
  rw [step, tick_cpu hh hk, cpuTick, hcpu, execute]
  cases exec i _ <;> rfl

end Sys2Proof.Machine
end

section
/-! The clock: the order of the tick, what a fault leaves, and how long an instruction takes (O53, O54, O55). -/

namespace Sys2Proof.Machine

/-! ### The tick -/

theorem cpuTick_of_next {s t : State} (h : cpuStep s = .next t) : cpuTick s = .next (nextTick (audioStep t)) := by
  rw [cpuTick, h]

theorem cpuTick_next {s t : State} (h : cpuTick s = .next t) :
    ∃ u, cpuStep s = .next u ∧ t = nextTick (audioStep u) := by
  unfold cpuTick at h
  split at h <;> cases h
  exact ⟨_, ‹_›, rfl⟩

theorem cpuTick_fault {s : State} {f : Fault} (h : cpuTick s = .fault f) : cpuStep s = .fault f := by
  unfold cpuTick at h
  split at h <;> cases h
  assumption

theorem cpuTick_of_fault {s : State} {f : Fault} (h : cpuStep s = .fault f) : cpuTick s = .fault f := by
  rw [cpuTick, h]

/-- Settles O53: the halted tick, the tick between CPU steps and the tick with one, and what the two units write. -/
theorem tickOrdersTheAgents : Obligations.TickOrdersTheAgents := by
  refine fun s => ⟨tick_halted, tick_between, fun hh hk => ⟨fun t ht => ?_, fun f hf => ?_⟩, videoStep_eq s,
    audioStep_eq s, fun h => ?_, fun h => ?_⟩
  · exact (tick_cpu hh hk).trans (cpuTick_of_next ht)
  · exact (tick_cpu hh hk).trans (cpuTick_of_fault hf)
  · simp only [audioStep, h, Bool.false_and]
  · simp only [audioStep, h, Bool.false_and]

/-! ### What a fault leaves -/

/-- The tick, the counts of the CPU step and the cartridge: what a fault leaves alone (R256). -/
def State.counts (s : State) : Nat × Nat × Nat × Nat × Cartridge :=
  (s.tick, s.instrCount, s.cyclesRemaining, s.extraCycles, s.cart)

/-- The fault leaves `halted` set to its reason, and the counts of `s`. -/
def Fault.Leaves (f : Fault) (s : State) : Prop :=
  f.final.halted = some f.reason ∧ f.final.counts = s.counts

/-- What counts alike is left alike. -/
theorem Fault.Leaves.of_counts {f : Fault} {s u : State} (h : f.Leaves u) (hc : u.counts = s.counts) :
    f.Leaves s := ⟨h.1, h.2.trans hc⟩

theorem raise_leaves (reason : HaltReason) (s : State) : (raise reason s).Leaves s := by
  rw [Fault.Leaves, raise_final, raise_reason]
  exact ⟨rfl, rfl⟩

section
variable {s t : State} {f : Fault}

/-! #### Accesses -/

theorem busRead_counts {a : Addr} {v : Byte} (h : busRead a s = .done v t) : t.counts = s.counts := by
  rw [busRead_keeps h]
  rfl

theorem busRead_leaves {a : Addr} (h : busRead a s = .raised f) : f.Leaves s := by
  obtain ⟨-, rfl | rfl⟩ := busRead_raised h
  · exact raise_leaves _ s
  · exact raise_leaves _ s

theorem busRead16_leaves {a : Addr} (h : busRead16 a s = .raised f) : f.Leaves s := by
  unfold busRead16 at h
  split at h
  · cases h
  · rcases Access.bind_raised h with hl | ⟨l, u, hu, h⟩
    · exact busRead_leaves hl
    · rcases Access.bind_raised h with hh | ⟨_, _, _, h⟩
      · exact (busRead_leaves hh).of_counts (busRead_counts hu)
      · cases h

/-- A DMA that faults has only read and copied (R256). -/
theorem dmaCopy_leaves {page : Byte} {n : Nat} (h : dmaCopy page n s = .raised f) : f.Leaves s := by
  induction n generalizing s with
  | zero => cases h
  | succ n ih =>
    rw [dmaCopy_succ] at h
    rcases Access.bind_raised h with hr | ⟨v, u, hu, h⟩
    · exact busRead_leaves hr
    · have hc : u.counts = s.counts := busRead_counts hu
      exact (ih h).of_counts hc

/-- A write that faults is a DMA that has not armed its stall (R86, R256). -/
theorem busWrite_leaves {a : Addr} {v : Byte} (h : busWrite a v s = .raised f) : f.Leaves s := by
  by_cases ha : a = 0x4014
  · subst ha
    rcases Access.bind_raised h with hd | ⟨_, _, _, h⟩
    · exact dmaCopy_leaves hd
    · cases h
  · obtain ⟨t, ht⟩ := busWrite_of_ne_dma v s ha
    rw [ht] at h
    cases h

theorem modeRead_leaves {p : Place} (h : modeRead p s = .raised f) : f.Leaves s := by
  cases p with
  | memory ea => exact busRead_leaves h
  | accumulator => cases h
  | immediate v => cases h
  | relative d => cases h

theorem modeWrite_leaves {opcode : Byte} {p : Place} {v : Byte} (h : modeWrite opcode p v s = .raised f) :
    f.Leaves s := by
  cases p with
  | memory ea => exact busWrite_leaves h
  | accumulator => cases h
  | immediate v =>
    cases h
    exact raise_leaves _ s
  | relative d =>
    cases h
    exact raise_leaves _ s

theorem modeRead_counts {p : Place} {v : Byte} (h : modeRead p s = .done v t) : t.counts = s.counts := by
  rw [modeRead_keeps h]
  rfl

/-! #### Instructions -/

/-- The fault of an access whose instruction only updates the state after it. -/
theorem Access.raised_of_andThen_next {α : Type} {r : Access α} {k : α → State → State}
    (h : r.andThen (fun v u => .next (k v u)) = .fault f) : r = .raised f := by
  rcases Access.andThen_fault h with hr | ⟨_, _, _, h⟩
  · exact hr
  · cases h

/-- A fault of an instruction is the fault of one of its accesses. -/
theorem exec_leaves {i : Instr} (h : exec i s = .fault f) : f.Leaves s := by
  cases exec_shape i s with
  | load r o _ he => exact modeRead_leaves (Access.raised_of_andThen_next (he ▸ h))
  | store r o _ he => exact modeWrite_leaves (Access.raised_of_andThen_next (he ▸ h))
  | accumulate g o _ he => exact modeRead_leaves (Access.raised_of_andThen_next (he ▸ h))
  | testFlags g r o _ he => exact modeRead_leaves (Access.raised_of_andThen_next (he ▸ h))
  | modify g o _ he =>
    rcases Access.andThen_fault (he ▸ h) with hr | ⟨v, u, hu, h⟩
    · exact modeRead_leaves hr
    · exact (modeWrite_leaves (Access.raised_of_andThen_next h)).of_counts (modeRead_counts hu)
  | registers u he _ =>
    rw [he] at h
    cases h
  | push v he =>
    rw [he] at h
    cases h
  | jsr w hi =>
    subst hi
    cases h
  | jmpIndirect w hi =>
    subst hi
    rcases Access.andThen_fault h with hl | ⟨l, u, hu, h⟩
    · exact busRead_leaves hl
    · exact (busRead_leaves (Access.raised_of_andThen_next h)).of_counts (busRead_counts hu)

/-! #### The step -/

theorem fetchOperand_leaves {e : Entry} (h : fetchOperand e s = .raised f) : f.Leaves s := by
  cases e with
  | f1 i => cases h
  | f2 make =>
    rcases Access.bind_raised h with hb | ⟨_, _, _, h⟩
    · exact busRead_leaves hb
    · cases h
  | f3 make =>
    rcases Access.bind_raised h with hw | ⟨_, _, _, h⟩
    · exact busRead16_leaves hw
    · cases h
  | skip2 make => cases h
  | skip3 make => cases h

theorem fetch_leaves (h : fetch s = .raised f) : f.Leaves s := by
  rcases Access.bind_raised h with ho | ⟨opcode, u, hu, h⟩
  · exact busRead_leaves ho
  · have hc : u.counts = s.counts := busRead_counts hu
    simp only [] at h
    split at h
    · cases h
      exact (raise_leaves _ _).of_counts hc
    · exact (fetchOperand_leaves h).of_counts hc

theorem fetch_counts {i : Instr} (h : fetch s = .done i t) : t.counts = s.counts := by
  rw [fetch_keeps h]
  rfl

theorem takeNmi_counts (s : State) : (takeNmi s).counts = s.counts := by
  obtain ⟨sp, pc, p, ram, nmiPrev, draws, hn⟩ := takeNmi_frame s
  rw [hn]
  rfl

theorem execute_leaves {i : Instr} (h : execute i s = .fault f) : f.Leaves s := by
  unfold execute at h
  split at h <;> cases h
  exact exec_leaves ‹_›

/-- A CPU step that faults has started an instruction (R256, R271). -/
theorem cpuStep_leaves (h : cpuStep s = .fault f) : s.cyclesRemaining = 0 ∧ f.Leaves s := by
  cases hn : s.cyclesRemaining with
  | succ n =>
    rw [cpuStep_counting hn] at h
    cases h
  | zero =>
    refine ⟨rfl, ?_⟩
    rw [cpuStep_boundary hn] at h
    have hk := takeNmi_counts s
    rcases Access.andThen_fault h with hf | ⟨i, u, hu, h⟩
    · exact (fetch_leaves hf).of_counts hk
    · exact (execute_leaves h).of_counts ((fetch_counts hu).trans hk)

/-- A tick that faults is one of a running machine that starts an instruction (R270). -/
theorem tick_leaves (h : tick s = .fault f) : s.startsInstruction ∧ f.Leaves s := by
  by_cases hh : s.halted = none
  · by_cases hk : s.tick % 3 = 0
    · rw [tick_cpu hh hk] at h
      obtain ⟨hc, hl⟩ := cpuStep_leaves (cpuTick_fault h)
      exact ⟨⟨hh, hk, hc⟩, hl⟩
    · rw [tick_between hh hk] at h
      cases h
  · rw [tick_halted hh] at h
    cases h

/-! #### The machine left behind -/

theorem runTicks_succ {n : Nat} (h : tick s = .next t) : runTicks (n + 1) s = runTicks n t := by
  rw [runTicks, h]

/-- A halted machine stands still (R270, R278). -/
theorem runTicks_halted (h : s.halted ≠ none) (n : Nat) : runTicks n s = .next s := by
  induction n with
  | zero => rfl
  | succ n ih => rw [runTicks_succ (tick_halted h), ih]

end

/-- Settles O54: every access leaves the counts until it faults, and a halted machine stands still. -/
theorem faultsHaltTheMachine : Obligations.FaultsHaltTheMachine := by
  intro s f h
  obtain ⟨hs, hhalt, hcounts⟩ := tick_leaves h
  simp only [State.counts, Prod.mk.injEq] at hcounts
  obtain ⟨htick, hcount, hcycles, hstall, hcart⟩ := hcounts
  exact ⟨hs, hhalt, htick, hcount, hcycles, hstall, hcart, runTicks_halted (by simp [hhalt])⟩

/-! ### The time between instructions -/

/-- How many ticks pass before the next one that starts an instruction (R270, R271). -/
def State.ticksToStart (s : State) : Nat := 3 * s.cyclesRemaining + (3 - s.tick % 3) % 3

/-- `t` is `s` but for the tick, the remaining cycles and what the external units write (R275, R276). -/
def onlyTimePassed (s t : State) : Prop :=
  t = { s with
    cyclesRemaining := t.cyclesRemaining, tick := t.tick, video := t.video, audio := t.audio
    ppu := { s.ppu with status := t.ppu.status }
    apu := { s.apu with reloadLinear := t.apu.reloadLinear, reloadNoise := t.apu.reloadNoise } }

theorem onlyTimePassed.trans {s t u : State} (h : onlyTimePassed s t) (h' : onlyTimePassed t u) :
    onlyTimePassed s u := by
  rw [onlyTimePassed] at *
  rw [h', h]

/-- A CPU step that executes an instruction does not touch the tick. -/
theorem cpuStep_boundary_tick {s t : State} (hc : s.cyclesRemaining = 0) (h : cpuStep s = .next t) :
    t.tick = s.tick := by
  obtain ⟨i, u, w, hf, he, rfl⟩ := cpuStep_boundary_next hc h
  have hx := exec_fixed he
  have hu := (fetch_counts hf).trans (takeNmi_counts s)
  simp only [State.fixed, State.counts, Prod.mk.injEq] at hx hu
  obtain ⟨-, -, hexec, -⟩ := hx
  obtain ⟨hfetch, -⟩ := hu
  exact hexec.trans hfetch

theorem startsInstruction_iff {s : State} (h : s.halted = none) : s.startsInstruction ↔ s.ticksToStart = 0 := by
  unfold State.startsInstruction State.ticksToStart
  constructor
  · rintro ⟨-, hk, hc⟩
    omega
  · intro hz
    exact ⟨h, by omega, by omega⟩

/-- A tick that starts no instruction brings the next start one tick closer: it is between CPU steps, or its CPU
step counts down. -/
theorem tick_waiting {s : State} {k : Nat} (h : s.halted = none) (hk : s.ticksToStart = k + 1) :
    ∃ t, tick s = .next t ∧ t.halted = none ∧ t.tick = s.tick + 1 ∧ t.ticksToStart = k ∧ onlyTimePassed s t := by
  unfold State.ticksToStart at hk
  by_cases h3 : s.tick % 3 = 0
  · obtain ⟨n, hn⟩ : ∃ n, s.cyclesRemaining = n + 1 := ⟨s.cyclesRemaining - 1, by omega⟩
    refine ⟨_, (tick_cpu h h3).trans (cpuTick_of_next (cpuStep_counting hn)), h, rfl, ?_, rfl⟩
    show 3 * n + (3 - (s.tick + 1) % 3) % 3 = k
    omega
  · refine ⟨_, tick_between h h3, h, rfl, ?_, rfl⟩
    show 3 * s.cyclesRemaining + (3 - (s.tick + 1) % 3) % 3 = k
    omega

/-- A running machine reaches the next start in exactly its `ticksToStart`, and time alone passes until then. -/
theorem runTicks_ticksToStart {s : State} {k : Nat} (h : s.halted = none) (hk : s.ticksToStart = k) :
    ∃ u, runTicks k s = .next u ∧ u.startsInstruction ∧ u.tick = s.tick + k ∧ onlyTimePassed s u ∧
      ∀ j, j < k → ∃ w, runTicks j s = .next w ∧ ¬w.startsInstruction := by
  induction k generalizing s with
  | zero => exact ⟨s, rfl, (startsInstruction_iff h).2 hk, rfl, rfl, nofun⟩
  | succ k ih =>
    obtain ⟨t, ht, hh, htick, hwait, hpass⟩ := tick_waiting h hk
    obtain ⟨u, hu, hstart, hutick, hupass, hbefore⟩ := ih hh hwait
    refine ⟨u, (runTicks_succ ht).trans hu, hstart, by omega, hpass.trans hupass, fun j hj => ?_⟩
    cases j with
    | zero => exact ⟨s, rfl, fun hs => by have := (startsInstruction_iff h).1 hs; omega⟩
    | succ j =>
      obtain ⟨w, hw, hnot⟩ := hbefore j (by omega)
      exact ⟨w, (runTicks_succ ht).trans hw, hnot⟩

/-- Settles O55: the tick that executes the instruction leaves 3n + 2 ticks to the next start. -/
theorem instructionTimingInTicks : Obligations.InstructionTimingInTicks := by
  rintro s t ⟨hh, hk, hc⟩ hst
  obtain ⟨htick, hrun⟩ : t.tick = s.tick + 1 ∧ t.halted = none := by
    obtain ⟨u, hu, rfl⟩ := cpuTick_next ((tick_cpu hh hk).symm.trans hst)
    obtain ⟨-, -, hhalt⟩ := cpuStep_keeps hu
    have hu' : u.tick = s.tick := cpuStep_boundary_tick (s := videoStep s) hc hu
    exact ⟨congrArg (· + 1) hu', hhalt.trans hh⟩
  have hwait : t.ticksToStart = 3 * t.cyclesRemaining + 2 := by
    unfold State.ticksToStart
    omega
  obtain ⟨u, hu, hstart, hutick, hpass, hbefore⟩ := runTicks_ticksToStart hrun hwait
  have ⟨_, _, hzero⟩ := hstart
  refine ⟨u, hu, hstart, by omega, ?_, hbefore⟩
  rw [onlyTimePassed, hzero] at hpass
  exact hpass

end Sys2Proof.Machine
end

section
/-! Reset (O56, O57): the vector read moves PC and the count of draws alone, so every other component is the
cleared one. -/

namespace Sys2Proof.Machine

/-! ### The mapper of a cartridge number -/

/-- The mappers with a PRG mapping of their own are numbers 0 and 1 (R40, R255). -/
theorem Mapper.ofNumber_ne_unsupported {n : Nat} (h : n ≤ 1) (k : Nat) : Mapper.ofNumber n ≠ .unsupported k := by
  obtain rfl | rfl : n = 0 ∨ n = 1 := by omega
  · nofun
  · nofun

theorem Mapper.ofNumber_unsupported {n : Nat} (h : 2 ≤ n) : Mapper.ofNumber n = .unsupported n := by
  obtain ⟨m, rfl⟩ : ∃ m, n = m + 2 := ⟨n - 2, by omega⟩
  rfl

/-! ### The vector read -/

section
variable {a : Addr} {s : State}

/-- The fixed mapping leaves no address of $C000-$FFFF out, whatever the image's size (R91). -/
theorem prgIndex_upper (cart : Cartridge) (params : Params) (h : 0xC000 ≤ a.toNat) :
    ∃ i, prgIndex cart params a = some i := by
  by_cases hb : cart.prgBanks = 1
  · exact ⟨a.toNat - 0xC000, by simp [prgIndex, hb, h]⟩
  · cases hp : params.nrom32Upper with
    | secondHalf => exact ⟨a.toNat - 0x8000, by simp [prgIndex, hb, hp, Nat.not_lt.mpr h]⟩
    | firstHalf => exact ⟨a.toNat - 0xC000, by simp [prgIndex, hb, hp, Nat.not_lt.mpr h]⟩

/-- A vector read of two stored bytes. -/
theorem readVector_of_index {i j : Nat} (hm : ∀ k, s.mapper ≠ .unsupported k)
    (hi : prgIndex s.cart s.params a = some i) (hj : prgIndex s.cart s.params (a + 1) = some j) :
    readVector a s = (word (Memory.read s.cart.prg j) (Memory.read s.cart.prg i), s) := by
  rw [readVector, mapperRead_of_index hm hi, mapperRead_of_index hm hj]

/-- A vector read through an unsupported mapper is two draws, the low byte first (R98). -/
theorem readVector_of_unsupported {k : Nat} (h : s.mapper = .unsupported k) :
    readVector a s = (word (Config.draw (s.draws + 1)) (Config.draw s.draws), s.setDraws (s.draws + 2)) := by
  rw [readVector, mapperRead_of_unmapped (s := s) (.inl ⟨k, h⟩),
    mapperRead_of_unmapped (s := (draw s).2) (.inl ⟨k, h⟩)]
  rfl

end

/-! ### The state after reset -/

section
variable (cart : Cartridge) (params : Params) (r : ResetValues)

/-- Reset is the clearing but for PC and the draws its vector read took. -/
theorem State.powerOn_eq_cleared :
    ∃ pc n, State.powerOn cart params r = { State.cleared cart params r with pc := pc, draws := n } := by
  rw [State.powerOn, readVector_state]
  exact ⟨_, _, rfl⟩

/-- With a supported mapper PC is the word that a bus read at $FFFC still finds after the reset. -/
theorem busRead16_resetVector_powerOn (h : cart.mapper ≤ 1) :
    busRead16 0xFFFC (State.powerOn cart params r) =
      .done (State.powerOn cart params r).pc (State.powerOn cart params r) := by
  have hm := Mapper.ofNumber_ne_unsupported h
  obtain ⟨i, hi⟩ := prgIndex_upper (a := 0xFFFC) cart params (by decide)
  obtain ⟨j, hj⟩ := prgIndex_upper (a := 0xFFFC + 1) cart params (by decide)
  rw [readVector_is_busRead16 _ (by decide) (by decide), State.powerOn, resetVector,
    readVector_of_index (s := State.cleared cart params r) hm hi hj,
    readVector_of_index (s := (State.cleared cart params r).setPc _) hm hi hj]
  rfl

/-- With an unsupported mapper PC is two fresh draws. -/
theorem State.powerOn_pc_of_unsupported (h : 2 ≤ cart.mapper) :
    (State.powerOn cart params r).pc =
      BitVec.ofNat 16 ((Config.draw (r.draws + 1)).toNat * 256 + (Config.draw r.draws).toNat) := by
  have hm : (State.cleared cart params r).mapper = .unsupported cart.mapper := Mapper.ofNumber_unsupported h
  rw [State.powerOn, readVector_of_unsupported hm, word_eq_ofNat]
  rfl

end

/-- Settles O56: the cleared components, the mapper by its number, and the two ways PC is loaded. -/
theorem resetStateTable : Obligations.ResetStateTable := by
  intro cart params r s
  have hstored : cart.mapper ≤ 1 → busRead16 0xFFFC s = .done s.pc s :=
    busRead16_resetVector_powerOn cart params r
  have hdrawn : 2 ≤ cart.mapper → s.pc = _ := State.powerOn_pc_of_unsupported cart params r
  obtain ⟨pc, n, hs⟩ : ∃ pc n, s = { State.cleared cart params r with pc := pc, draws := n } :=
    State.powerOn_eq_cleared cart params r
  clear_value s
  subst hs
  exact ⟨
    -- the registers and the five memories
    rfl, rfl, rfl, rfl, rfl, rfl, rfl, rfl, rfl, rfl,
    -- the PPU registers
    rfl, rfl, rfl, rfl, rfl, rfl, rfl, rfl, rfl, rfl,
    -- the audio bank and the controller
    fun _ => rfl, rfl, rfl, rfl, rfl, rfl,
    -- the mapper
    congrArg Mapper.ofNumber, congrArg Mapper.ofNumber, Mapper.ofNumber_unsupported,
    -- the clock and the configuration
    rfl, rfl, rfl, rfl, rfl, rfl, rfl, rfl,
    -- PC
    hstored, hdrawn⟩

/-! ### The model's reset state -/

theorem Cartridge.blank_admitted : AdmittedCartridge Cartridge.blank := by
  constructor <;> decide

/-- Every array of the reset state is empty, so only the cartridge and its mapper are left to see. -/
theorem State.reset_storage : State.reset.Storage := by
  constructor
  case cart => exact Cartridge.blank_admitted
  case mapper => rfl
  all_goals decide

/-- Settles O57: the vector read of the blank cartridge finds two zeros, and the cleared arrays are empty. -/
theorem resetMeetsTheInvariant : Obligations.ResetMeetsTheInvariant :=
  ⟨rfl, State.reset_storage, rfl, by decide, rfl⟩

end Sys2Proof.Machine
end
